-- ==== Sys2Proof/Word.lean ====
section
/-! DEFINITION. The word types of the part: the fields of frames and payloads (Chapters 9 and 11) and the
24-bit tick counter (R109). Positions and points run to 4,294,967,296 and never wrap (R1), so they are plain
`Nat`; samples, coefficients and envelopes are exact signed numbers (00_scope, Conventions), so they are `Int`. -/

namespace Sys2Proof

/-- One byte of a frame. -/
abbrev Byte := BitVec 8

/-- A 2-byte field, most significant byte first on the wire (Chapter 11). -/
abbrev Half := BitVec 16

/-- A 4-byte field, most significant byte first on the wire (Chapter 11). -/
abbrev Word := BitVec 32

/-- A value of the tick counter: 24 bits, wrapping (R109). -/
abbrev Tick := BitVec 24

/-- Shift right by n of the Conventions of 00_scope: the floor of division by 2^n. -/
abbrev asr (x : Int) (n : Nat) : Int := x / (2 ^ n : Int)

end Sys2Proof
end

