-- ==== Sys2Proof/Syntax.lean ====
section
/-! DEFINITION. The commands of the part: one constructor of `Instr` per row of spec/opcode_table.json, and the
operands they carry. The operands of a request are the fields of its payload (R184, 11.2), as sent: a code that
names no defined value is a value of the operand and is judged by the rule that owns the request. -/

namespace Sys2Proof

/-- The two Station Ports (Chapter 9). -/
inductive Port where
  | A | B
  deriving DecidableEq, Repr

/-- A lane number of the part, 0 to 5. -/
abbrev LaneId := Fin 6

/-- A perforation line, P0 to P3. -/
abbrev LineId := Fin 4

/-- A level of a perforation input (R113, R114). -/
inductive Level where
  | low | high
  deriving DecidableEq, Repr

/-- The payload of LANE OPEN (11.2, code 01h). -/
structure LaneOpenArgs where
  source : Byte
  sink : Byte
  rate : Byte
  ringSize : Byte
  hold : Byte
  reserve : Half
  slot : Byte
  line : Byte
  start : Word
  width : Byte
  rounding : Byte
  log : Byte
  deriving DecidableEq, Repr

/-- The payload of EDIT (11.2, code 10h): `pos` is the start, or the centre of a SPLICE. -/
structure EditArgs where
  action : Byte
  conditional : Byte
  pos : Word
  length : Half
  deriving DecidableEq, Repr

/-- The payload of TRANSPORT SETUP (11.2, code 20h). -/
structure TransportArgs where
  line : Byte
  report : Byte
  enable : Byte
  sense : Byte
  n : Byte
  tc : Byte
  tl : Byte
  deriving DecidableEq, Repr

/-- A PROFILE record as carried (11.6), before the clamps of R145. -/
structure ProfileRaw where
  t : Half
  g : Byte
  lmax : Byte
  emin : Half
  ls : Half
  mode : Byte
  f : Half
  d : Byte
  h : Byte
  mu : Byte
  levels : Vector (BitVec 24) 12
  alphas : Vector Half 12
  g1 : Half
  g2 : Half
  g3 : Half
  deriving DecidableEq, Repr

/-- A whole request of the table of R184, with its payload. -/
inductive Request where
  | laneOpen (a : LaneOpenArgs)
  | laneClose
  | laneDrain
  | laneStatus
  | edit (a : EditArgs)
  | reserve (pos : Word)
  | cursorSet (pos : Word)
  | listRead (n : Byte)
  | sync
  | transportSetup (a : TransportArgs)
  | profileWrite (slot : Byte) (r : ProfileRaw)
  | profileRead (form which : Byte)
  | refresh (slot : Byte)
  | portSetup (width order delivery : Byte)
  | unitReset
  | noticeMask (masks : Vector Byte 6)
  | condition (form which : Byte)
  | identify
  deriving DecidableEq, Repr

/-- The commands. A row that takes a request from a port's queue names the port, the request's tag, the lane
field of its header and its payload (R154, R158, R184). A row that is an event of a lane, a line or a port names
that lane, line or port; an event of a line names the tick `t` at which it takes place (R109). -/
inductive Instr where
  /-- A REQUEST frame arrives whole on a port's link, as its bytes (R154, R155, R157). -/
  | requestFrame (p : Port) (bytes : List Byte)
  /-- A SAMPLES frame arrives whole on a port's link, as its bytes (R13, R154 to R156). -/
  | samplesFrame (p : Port) (bytes : List Byte)
  | laneOpen (p : Port) (tag : Half) (lane : Byte) (a : LaneOpenArgs)
  | laneClose (p : Port) (tag : Half) (lane : Byte)
  | laneDrain (p : Port) (tag : Half) (lane : Byte)
  | laneStatus (p : Port) (tag : Half) (lane : Byte)
  | editVeto (p : Port) (tag : Half) (lane : Byte) (a : EditArgs)
  | editRestore (p : Port) (tag : Half) (lane : Byte) (a : EditArgs)
  | editForce (p : Port) (tag : Half) (lane : Byte) (a : EditArgs)
  | editSplice (p : Port) (tag : Half) (lane : Byte) (a : EditArgs)
  | reserve (p : Port) (tag : Half) (lane : Byte) (pos : Word)
  | cursorSet (p : Port) (tag : Half) (lane : Byte) (pos : Word)
  | listRead (p : Port) (tag : Half) (lane : Byte) (n : Byte)
  | sync (p : Port) (tag : Half) (lane : Byte)
  | transportSetup (p : Port) (tag : Half) (lane : Byte) (a : TransportArgs)
  | profileWrite (p : Port) (tag : Half) (lane : Byte) (slot : Byte) (r : ProfileRaw)
  | profileRead (p : Port) (tag : Half) (lane : Byte) (form which : Byte)
  | refresh (p : Port) (tag : Half) (lane : Byte) (slot : Byte)
  | portSetup (p : Port) (tag : Half) (lane : Byte) (width order delivery : Byte)
  | unitReset (p : Port) (tag : Half) (lane : Byte)
  | noticeMask (p : Port) (tag : Half) (lane : Byte) (masks : Vector Byte 6)
  | condition (p : Port) (tag : Half) (lane : Byte) (form which : Byte)
  | identify (p : Port) (tag : Half) (lane : Byte)
  | malformedEntry (p : Port) (tag : Half) (lane : Byte)
  | unknownEntry (p : Port) (tag : Half) (lane : Byte)
  | linkDown (p : Port)
  | linkUp (p : Port)
  | resetPin
  /-- The arbiter of sink port `p` takes a RESTORED frame (R22, R23, R162). -/
  | release (p : Port)
  | logFrameTaken (p : Port)
  | responseTaken (p : Port)
  | noticeTaken (p : Port)
  | flowFrameTaken (p : Port)
  | renderStart
  | renderCompletion
  | syncAnswer (lane : LaneId)
  | analysePosition (lane : LaneId)
  /-- The edge filter of line `k` reports an edge whose edge time is `t` (R114, R115). -/
  | perforationEdge (k : LineId) (t : Tick)
  | coastTimeout (k : LineId) (t : Tick)
  | lostTimeout (k : LineId) (t : Tick)
  | searchTimeout (k : LineId) (t : Tick)
  | go (lane : LaneId)
  | landingPlacement (lane : LaneId)
  | finalBlock (lane : LaneId)
  | drainAnalysisFinish (lane : LaneId)
  | drainCompletion (lane : LaneId)
  | retiringDiscard (lane : LaneId)
  /-- The input of line `k` stands at `level` at tick `t`, and is sampled there if a sample is due (R113). -/
  | filterSample (k : LineId) (t : Tick) (level : Level)
  deriving DecidableEq, Repr

end Sys2Proof
end

