-- ==== Sys2Proof/WellFormed.lean ====
section
/-! DEFINITION. Which terms of `Instr` are commands of their own row. Every operand's width is in its type, so
two things are left to check: the kind byte of an arriving frame against the frame's row (11.1), and the action
of an EDIT against the row that names it (11.9). An EDIT whose action is none of the four belongs to the row
EDIT_VETO, which answers it by check 2 of R66. -/

namespace Sys2Proof

/-- Kind code of a REQUEST frame (11.1). -/
def kindRequest : Byte := 0x01#8
/-- Kind code of a SAMPLES frame (11.1). -/
def kindSamples : Byte := 0x02#8

/-- EDIT action codes (11.9). -/
def actionVeto : Byte := 1#8
def actionRestore : Byte := 2#8
def actionForce : Byte := 3#8
def actionSplice : Byte := 4#8

/-- The action belongs to the row EDIT_VETO: VETO itself, or no action of the four (R66, check 2). -/
def actionOfVetoRow (a : Byte) : Bool := a != actionRestore && a != actionForce && a != actionSplice

/-- Which row of the table an EDIT's action belongs to is the action's own business; a frame's kind is its row's. -/
def Instr.wellFormed : Instr → Bool
  | .requestFrame _ bytes => bytes.head? != some kindSamples
  | .samplesFrame _ bytes => bytes.head? != some kindRequest
  | .laneOpen _ _ _ _ => true
  | .laneClose _ _ _ => true
  | .laneDrain _ _ _ => true
  | .laneStatus _ _ _ => true
  | .editVeto _ _ _ a => actionOfVetoRow a.action
  | .editRestore _ _ _ a => a.action == actionRestore
  | .editForce _ _ _ a => a.action == actionForce
  | .editSplice _ _ _ a => a.action == actionSplice
  | .reserve _ _ _ _ => true
  | .cursorSet _ _ _ _ => true
  | .listRead _ _ _ _ => true
  | .sync _ _ _ => true
  | .transportSetup _ _ _ _ => true
  | .profileWrite _ _ _ _ _ => true
  | .profileRead _ _ _ _ _ => true
  | .refresh _ _ _ _ => true
  | .portSetup _ _ _ _ _ _ => true
  | .unitReset _ _ _ => true
  | .noticeMask _ _ _ _ => true
  | .condition _ _ _ _ _ => true
  | .identify _ _ _ => true
  | .malformedEntry _ _ _ => true
  | .unknownEntry _ _ _ => true
  | .linkDown _ => true
  | .linkUp _ => true
  | .resetPin => true
  | .release _ => true
  | .logFrameTaken _ => true
  | .responseTaken _ => true
  | .noticeTaken _ => true
  | .flowFrameTaken _ => true
  | .renderStart => true
  | .renderCompletion => true
  | .syncAnswer _ => true
  | .analysePosition _ => true
  | .perforationEdge _ _ => true
  | .coastTimeout _ _ => true
  | .lostTimeout _ _ => true
  | .searchTimeout _ _ => true
  | .go _ => true
  | .landingPlacement _ => true
  | .finalBlock _ => true
  | .drainAnalysisFinish _ => true
  | .drainCompletion _ => true
  | .retiringDiscard _ => true
  | .filterSample _ _ _ => true

end Sys2Proof
end

