-- ==== Sys2Proof/Decode.lean ====
section
/-! DEFINITION. The opcode table gives no bits to any of its 48 rows (its every "fields" is empty): no word spells
a command. The byte formats the part does have, of frames, requests and records (Chapters 9 and 11), are read and
formed in Machine/Frames.lean and Machine/Operands.lean. -/

namespace Sys2Proof

/-- The command a word of the table spells: the table spells none. -/
def decodeTableWord (_nbits _w : Nat) : Option Instr := none

end Sys2Proof
end

