-- ==== Sys2Proof/Config.lean ====
section
/-! DEFINITION. The fixed figures of the part (00_scope, Principal Figures) and the one free value the manual
leaves open. -/

namespace Sys2Proof.Config

/-- One above the largest position (R1). -/
def topPos : Nat := 4294967296
/-- Largest position, 4,294,967,295. -/
def maxPos : Nat := 4294967295
/-- Positions of a block (00_scope). -/
def blockLen : Nat := 256
/-- Slots of the Sample Store (R9). -/
def slotCount : Nat := 256
/-- Records of the Record Pool (R54). -/
def poolSize : Nat := 4096
/-- Longest span and longest record (R25, R48). -/
def maxSpan : Nat := 1024
/-- Available count below which POOL LOW is raised (R58). -/
def lowMark : Nat := 64
/-- Largest value of a 32-bit saturating counter, an edit number or a generation. -/
def max32 : Nat := 4294967295
/-- Entries of a port's request queue (R157). -/
def queueLen : Nat := 8
/-- Parked requests of a port (R159). -/
def parkedMax : Nat := 4
/-- Frames a lane accepts between a HOLD and the next GO (R18). -/
def afterHoldMax : Nat := 4
/-- Records in one LOG frame (R61). -/
def logFrameMax : Nat := 16
/-- Entries of a grade window (R181). -/
def windowMax : Nat := 16
/-- Shortest accepted period, in ticks (R115). -/
def minPeriod : Nat := 4096
/-- Unit of Tc and Tl, in ticks (R110). -/
def timeoutUnit : Nat := 65536

/-- FREE VALUE (assumption log 1). What an anchor read gives at a position of the lane whose slot has since been
taken by a later block that has overwritten it: R31, R37 and R43 ask for that position's raw value and R9 keeps
it no longer. `event` is the number of the event that reads, so that no two events need agree. -/
opaque lostRaw (event lane position : Nat) : BitVec 24

end Sys2Proof.Config
end

