-- ==== Sys2Proof/Machine/State.lean ====
section
/-! DEFINITION. The state of the part, as plain data: every field the manual gives its blocks, the queue of
waiting commands, and the few fields of the model's own (marked so). `State.reset` is the part at the release of
the reset pin (R170). -/

namespace Sys2Proof.Machine
open Sys2Proof

/-- Why a step may stop. The manual gives no event of the part a stop: a request that cannot be carried out is
answered with a status, a frame that cannot be used is discarded and counted, and an event whose condition does
not hold does not take place. So there is no constructor, and nothing raises a fault. -/
inductive Fault where
  deriving DecidableEq, Repr

/-- Why a command may be refused. -/
inductive Refusal where
  /-- The model has no meaning for the command of that row. Raised by an arm of `exec` only; safe. No arm of this
  model raises it. -/
  | notModelled (mnemonic : String)
  deriving DecidableEq, Repr

/-! ### Lanes (Chapter 1) -/

inductive LaneState where
  | closed | active | draining
  deriving DecidableEq, Repr

/-- Sample rate of a lane, 48 kHz or 96 kHz (R1). -/
inductive Rate where
  | k48 | k96
  deriving DecidableEq, Repr

/-- Sample width, 16 or 24 bits: of a port's input (R165) or of a lane's delivery (R1). -/
inductive Width where
  | w16 | w24
  deriving DecidableEq, Repr

inductive Rounding where
  | nearest | truncate
  deriving DecidableEq, Repr

inductive BlockState where
  | free | filling | analysed | rendering | rendered | dirty
  deriving DecidableEq, Repr

/-- One ring entry of an open lane: the block state and what R11 and R181 keep with it. -/
structure Block where
  state : BlockState := .free
  /-- "rendered at least once" (R11). -/
  rendered : Bool := false
  /-- The DIRTY mark; kept through a re-render as the mark of the render in flight (R76). -/
  mark : Option Nat := none
  /-- The `touched` flag with its touch mark: set exactly when present (R76, R93). -/
  touch : Option Nat := none
  /-- The unlisted tally of the block (R181). -/
  tally : Nat := 0
  deriving DecidableEq, Repr

/-- An accepted frame, or the unplaced rest of one (R17): its samples stand at `start`, `start` + 1, …; `none`
is a position of a BAD frame (R14). `resumed` says that it has been placed in part before (R14, step 1). -/
structure Landed where
  start : Nat
  samples : List (Option Int)
  resumed : Bool
  deriving DecidableEq, Repr

/-! ### Records (Chapter 3) -/

inductive Kind where
  | click | burst | gap | forced | splice
  deriving DecidableEq, Repr

inductive Origin where
  | detector | link | portA | portB
  deriving DecidableEq, Repr

inductive RecState where
  | opened | live | frozen
  deriving DecidableEq, Repr

inductive Disp where
  | applied | vetoed
  deriving DecidableEq, Repr

/-- A REPAIR RECORD (R48). The ratio of a record that has none is 0. -/
structure Record where
  start : Nat
  length : Nat
  kind : Kind
  origin : Origin
  state : RecState
  disp : Disp
  ratio : Nat
  before : Option Int
  after : Option Int
  deriving DecidableEq, Repr

/-- A LOG frame waiting in a lane's log queue (R61): the released block's first position, the starts of the
records it carries (the records stay in the list, FROZEN, until it is taken), and more-follows. -/
structure LogFrame where
  first : Nat
  starts : List Nat
  more : Bool
  deriving DecidableEq, Repr

/-! ### The Click Analyser and the Lane Controller's runs (Chapter 2) -/

inductive SpanForm where
  | listed | unlisted
  deriving DecidableEq, Repr

inductive SpanPhase where
  | growing | waiting
  deriving DecidableEq, Repr

/-- A span entry (R25). `opened` is the flag that opened it (R32 asks for it again), `own` says that it took its
own record (R34 counts those), and `floorRatio` is the largest ratio of the CLICK and BURST records it has merged
with (R36); these three are implied by the rules that read them. -/
structure Span where
  form : SpanForm
  phase : SpanPhase
  start : Nat
  last : Nat
  cap : Nat
  pinned : Bool
  lastFlag : Nat
  guard : Nat
  lmax : Nat
  peakM : Nat
  peakE : Nat
  opened : Nat
  own : Bool
  floorRatio : Nat
  deriving DecidableEq, Repr

/-- The GAP piece the Lane Controller is growing (R16, R40, R42, R50): a record of the list, named by its start,
or a piece in the lane's unlisted slot. -/
inductive Piece where
  | listed (start : Nat)
  | unlisted (start length : Nat)
  deriving DecidableEq, Repr

/-! ### Profiles (Chapter 8) -/

inductive HumMode where
  | fixed | tracked
  deriving DecidableEq, Repr

/-- A PROFILE record as held (R143). -/
structure Profile where
  t : Nat
  g : Nat
  lmax : Nat
  emin : Nat
  ls : Nat
  mode : HumMode
  f : Nat
  d : Nat
  h : Nat
  mu : Nat
  levels : Vector Nat 12
  alphas : Vector Nat 12
  g1 : Nat
  g2 : Nat
  g3 : Nat
  deriving DecidableEq, Repr

/-- The default PROFILE (R143). -/
def Profile.default : Profile where
  t := 32
  g := 2
  lmax := 32
  emin := 64
  ls := 64
  mode := .fixed
  f := 5000
  d := 1
  h := 0
  mu := 10
  levels := Vector.replicate 12 0
  alphas := Vector.replicate 12 32768
  g1 := 4
  g2 := 16
  g3 := 48

/-- A working copy (R148): the record, its generation and the slot it was copied from. -/
structure WorkingCopy where
  profile : Profile
  generation : Nat
  slot : Nat
  deriving DecidableEq, Repr

/-! ### Condition (Chapter 10) -/

/-- The sixteen condition counters of a lane, in the order of the table of R179. -/
inductive Ctr where
  | placed | missing | released | click | burst | gapPieces | splice | forced
  | veto | unlisted | truncated | duplicate | overrun | late | coast | lost
  deriving DecidableEq, Repr

inductive Grade where
  | A | B | C | D
  deriving DecidableEq, Repr

/-- One entry of a grade window: a released block's ordinal and the records started in it counted so far (R181). -/
structure WindowEntry where
  block : Nat
  count : Nat
  deriving DecidableEq, Repr

/-- Everything the part holds for one lane: the lane record (R1), the analyser's state (R25), the unlisted slot
(R42), the Repair List, log queue and low flag (Chapter 3), the edit number (R65), the working copies (R148) and
the condition counters, grade and window (R179 to R181). The ring size N is the length of `ring`; the unlisted
slot is occupied when the span is UNLISTED or the piece is. -/
structure Lane where
  state : LaneState
  source : Port
  sink : Port
  rate : Rate
  ring : List Nat
  hold : Nat
  reserve : Nat
  line : Option LineId
  start : Nat
  width : Width
  rounding : Rounding
  log : Bool
  fill : Nat
  analysis : Nat
  render : Nat
  release : Nat
  blocks : List Block
  landing : List Landed
  held : Bool
  afterHold : Nat
  final : Option Nat
  /-- MODEL'S OWN: the analyser has finished the DRAINING lane (R46). -/
  finished : Bool
  x1 : Int
  x2 : Int
  suspend : Nat
  envelope : Int
  span : Option Span
  armed : Bool
  piece : Option Piece
  /-- A valid sample inside the current piece has ended the run that the piece belongs to (R16, R40). -/
  runEnded : Bool
  /-- The start of the record that stopped the run's piece by R41, while it may still drop positions. -/
  gapStop : Option Nat
  list : List Record
  low : Bool
  logQueue : List LogFrame
  edit : Nat
  active : Option WorkingCopy
  retiring : Option WorkingCopy
  counters : Vector Nat 16
  grade : Grade
  window : List WindowEntry
  /-- The lane has been opened since a reset (R180). -/
  everOpened : Bool
  deriving DecidableEq, Repr

/-- A lane after the reset pin: CLOSED, every other field zero, absent or off (R1), the analyser's notice flag
armed (R25), counters 0, the window empty and the grade A (R181), and not opened since (R180). -/
def Lane.reset : Lane where
  state := .closed
  source := .A
  sink := .A
  rate := .k48
  ring := []
  hold := 0
  reserve := 0
  line := none
  start := 0
  width := .w16
  rounding := .nearest
  log := false
  fill := 0
  analysis := 0
  render := 0
  release := 0
  blocks := []
  landing := []
  held := false
  afterHold := 0
  final := none
  finished := false
  x1 := 0
  x2 := 0
  suspend := 0
  envelope := 0
  span := none
  armed := true
  piece := none
  runEnded := false
  gapStop := none
  list := []
  low := false
  logQueue := []
  edit := 0
  active := none
  retiring := none
  counters := Vector.replicate 16 0
  grade := .A
  window := []
  everOpened := false

/-! ### The Sample Store (R9) and the Render Engine (Chapter 5) -/

/-- A sparse buffer: (address, value) pairs, addresses strictly rising, no value equal to what an unlisted address
reads as. The kept form is `Cells.wf` of Machine/Ops.lean. -/
abbrev Cells (α : Type) := List (Nat × α)

inductive LineState where
  | disabled | searching | tracking | coast
  deriving DecidableEq, Repr

/-- The filter fields of a checkpoint, and the working state of a render (R89, R103). -/
structure Filter where
  phase : Nat
  a : Vector Int 8
  b : Vector Int 8
  y : Int
  v : Int
  deriving DecidableEq, Repr

def Filter.zero : Filter := ⟨0, Vector.replicate 8 0, Vector.replicate 8 0, 0, 0⟩

/-- The latched fields of a checkpoint (R103, R123). -/
structure Latch where
  line : LineState
  increment : Nat
  generation : Nat
  deriving DecidableEq, Repr

def Latch.zero : Latch := ⟨.disabled, 0, 0⟩

/-- A checkpoint record (R103). -/
structure Checkpoint where
  latch : Latch
  filter : Filter
  deriving DecidableEq, Repr

def Checkpoint.zero : Checkpoint := ⟨.zero, .zero⟩

/-- The 256 slots of the Sample Store (R9). Position o of slot n is address 256·n + o of `raw`, `missing` and
`restored`; the checkpoint of slot n is address n of `checkpoints`. An unlisted address reads as the reset
contents R9 gives: 0, flag clear, every field 0. -/
structure SampleStore where
  raw : Cells Int
  missing : Cells Bool
  restored : Cells Int
  checkpoints : Cells Checkpoint
  deriving DecidableEq, Repr

def SampleStore.empty : SampleStore := ⟨[], [], [], []⟩

inductive RenderKind where
  | first | rerender
  deriving DecidableEq, Repr

/-- A record as the snapshot holds it (R93). -/
structure SnapRecord where
  start : Nat
  length : Nat
  before : Int
  after : Int
  deriving DecidableEq, Repr

/-- The render in flight, with its snapshot and working state (R89, R93). -/
structure Render where
  lane : LaneId
  block : Nat
  first : Nat
  length : Nat
  kind : RenderKind
  mark : Option Nat
  abandoned : Bool
  raw : List Int
  records : List SnapRecord
  latch : Latch
  profile : Profile
  work : Filter
  deriving DecidableEq, Repr

/-- The Render Engine (R89): BUSY exactly while a render is in flight. -/
structure Engine where
  pointer : LaneId
  inFlight : Option Render
  deriving DecidableEq, Repr

/-! ### Perforation lines (Chapter 6) -/

inductive Sense where
  | rising | falling
  deriving DecidableEq, Repr

/-- A line record (R110). -/
structure Line where
  state : LineState
  enable : Bool
  sense : Sense
  n : Nat
  nPending : Option Nat
  tc : Nat
  tl : Nat
  tPending : Option (Nat × Nat)
  prescaler : Nat
  settled : Option Level
  run : Nat
  reference : Option Tick
  silence : Tick
  recent : List Nat
  ps : Nat
  /-- Implied by R119: the first edge since the line entered COAST has been taken. -/
  coastEdge : Bool
  /-- MODEL'S OWN: the filter sample due at this tick has been taken (R113). -/
  sampled : Bool
  /-- The level standing at the input pin PERF0 to PERF3 (11.10). -/
  input : Level
  deriving DecidableEq, Repr

/-- A line after reset (R110), with its input pin standing at `input`. -/
def Line.reset (input : Level) : Line where
  state := .disabled
  enable := false
  sense := .rising
  n := 0
  nPending := none
  tc := 8
  tl := 64
  tPending := none
  prescaler := 0
  settled := none
  run := 0
  reference := none
  silence := 0
  recent := []
  ps := 0
  coastEdge := false
  sampled := false
  input := input

/-! ### Station Ports (Chapters 4, 9 and 10) -/

inductive LinkState where
  | down | up
  deriving DecidableEq, Repr

inductive ByteOrder where
  | little | big
  deriving DecidableEq, Repr

/-- An entry of a request queue (R157). -/
inductive Entry where
  | whole (tag : Half) (lane : Byte) (r : Request)
  | malformed (tag : Half) (lane : Byte)
  | unknown (tag : Half) (lane : Byte)
  deriving DecidableEq, Repr

/-- What a parked request waits for (R5, R86): the drain of its lane, or its captured edit number. -/
inductive ParkedKind where
  | drain
  | sync (s : Nat)
  deriving DecidableEq, Repr

/-- A parked request not yet answered (R65, R159). -/
structure Parked where
  tag : Half
  lane : LaneId
  kind : ParkedKind
  deriving DecidableEq, Repr

/-- Status codes (11.8). -/
inductive Status where
  | done | clamped | busy | range | state | nolane | nospace | overlap
  | norec | tooLate | lost | closed | unknown | malformed
  deriving DecidableEq, Repr

/-- A RESPONSE of an answer list (R158). `ofParked` says that it answers a parked request, which counts as parked
until the arbiter takes this response (R159); otherwise it answers the request in progress. -/
structure Response where
  tag : Half
  lane : Byte
  status : Status
  payload : List Byte
  ofParked : Bool
  deriving DecidableEq, Repr

/-- An entry of a flow list (R163): a HOLD, or a GO, for one lane, with its fill point. -/
structure FlowEntry where
  lane : LaneId
  hold : Bool
  fill : Nat
  deriving DecidableEq, Repr

/-- A list cursor (R65, R83). -/
structure Cursor where
  lane : LaneId
  pos : Nat
  deriving DecidableEq, Repr

/-- A reservation: a lane and the first position of one of its blocks (R65, R79). -/
structure Reservation where
  lane : LaneId
  first : Nat
  deriving DecidableEq, Repr

/-- Notice codes (11.8). -/
inductive NoticeCode where
  | laneOpened | laneClosed | laneDrained
  | lineCoast | lineLost | lineTracking
  | poolLow | unlisted
  | overrun
  | grade
  | reset | linkUp | requestDropped
  deriving DecidableEq, Repr

/-- A pending notice entry (R174). -/
structure NoticeEntry where
  code : NoticeCode
  count : Nat
  pos : Nat
  detail : Nat
  order : Nat
  deriving DecidableEq, Repr

/-- Kinds of outbound frame (11.1). -/
inductive OutKind where
  | response | restored | log | notice | hold | go
  deriving DecidableEq, Repr

/-- A frame the arbiter has taken, less its CRC (R154, R186). -/
structure OutFrame where
  kind : OutKind
  lane : Byte
  flags : Byte
  code : Byte
  tag : Half
  payload : List Byte
  deriving DecidableEq, Repr

/-- A Station Port (R165, R172, R174). The notice entry of category code c (1 to 6) and lane j, or the unit for
j = 6, is entry 7·(c − 1) + j; the mask of category code c is mask c − 1. -/
structure PortRec where
  link : LinkState
  width : Width
  order : ByteOrder
  delivery : Bool
  queue : List Entry
  inProgress : Option Half
  parked : List Parked
  answers : List Response
  flow : List FlowEntry
  cursor : Cursor
  reservation : Option Reservation
  masks : Vector Bool 6
  entries : Vector (Option NoticeEntry) 42
  pointer : LaneId
  crcError : Nat
  malformed : Nat
  stray : Nat
  dropped : Nat
  firstUp : Bool
  /-- MODEL'S OWN: the frames this port's arbiter has taken, oldest first: what the station receives (R164). -/
  sent : List OutFrame
  deriving DecidableEq, Repr

/-- A port after the reset pin (R165, R170). -/
def PortRec.reset : PortRec where
  link := .down
  width := .w24
  order := .little
  delivery := true
  queue := []
  inProgress := none
  parked := []
  answers := []
  flow := []
  cursor := ⟨0, 0⟩
  reservation := none
  masks := Vector.replicate 6 false
  entries := Vector.replicate 42 none
  pointer := 5
  crcError := 0
  malformed := 0
  stray := 0
  dropped := 0
  firstUp := true
  sent := []

/-! ### The part -/

/-- The whole part. -/
structure State where
  lanes : Vector Lane 6
  store : SampleStore
  engine : Engine
  portA : PortRec
  portB : PortRec
  tick : Tick
  lines : Vector Line 4
  library : Vector Profile 32
  /-- MODEL'S OWN: how many events the part has taken. It numbers the moments at which notice entries become
  pending (R174, R175) and is the argument of the free value `Config.lostRaw`. -/
  events : Nat
  /-- MODEL'S OWN: the commands that wait, first in, first out. -/
  pending : List Instr
  deriving DecidableEq, Repr

/-- The part at the release of the reset pin (R170), with no command waiting. -/
def State.reset : State where
  lanes := Vector.replicate 6 Lane.reset
  store := SampleStore.empty
  engine := ⟨5, none⟩
  portA := PortRec.reset
  portB := PortRec.reset
  tick := 0
  lines := Vector.replicate 4 (Line.reset .low)
  library := Vector.replicate 32 Profile.default
  events := 0
  pending := []

end Sys2Proof.Machine
end

