-- ==== Sys2Proof/Machine/Ops.lean ====
section
/-! DEFINITION. The named operations over the state: the Sample Store's buffers, the accessors of lanes, ports and
lines, the geometry of a lane's ring (R10), anchor reads (R52), the roundings of 00_scope, and the counters. -/

namespace Sys2Proof.Machine
open Sys2Proof

/-! ### The Sample Store's buffers (R9) -/

/-- What address `k` holds; an unlisted address reads as `d`. -/
def Cells.read {α : Type} (d : α) (k : Nat) : Cells α → α
  | [] => d
  | (a, v) :: t => if a = k then v else if k < a then d else Cells.read d k t

/-- Write `v` at address `k`, keeping the addresses rising and no entry equal to `d`. -/
def Cells.write {α : Type} [DecidableEq α] (d : α) (k : Nat) (v : α) : Cells α → Cells α
  | [] => if v = d then [] else [(k, v)]
  | (a, w) :: t =>
    if k < a then (if v = d then (a, w) :: t else (k, v) :: (a, w) :: t)
    else if a = k then (if v = d then t else (k, v) :: t)
    else (a, w) :: Cells.write d k v t

/-- The kept form from address `lo` on: addresses strictly rising, no entry equal to `d`. -/
def Cells.wfFrom {α : Type} [DecidableEq α] (d : α) (lo : Nat) : Cells α → Bool
  | [] => true
  | (a, v) :: t => decide (lo ≤ a) && decide (v ≠ d) && Cells.wfFrom d (a + 1) t

/-- The kept form of a buffer. -/
def Cells.wf {α : Type} [DecidableEq α] (d : α) (c : Cells α) : Bool := Cells.wfFrom d 0 c

/-- The kept form of the whole Sample Store. -/
def SampleStore.wf (m : SampleStore) : Bool :=
  Cells.wf 0 m.raw && Cells.wf false m.missing && Cells.wf 0 m.restored && Cells.wf Checkpoint.zero m.checkpoints

def SampleStore.setRaw (m : SampleStore) (k : Nat) (v : Int) : SampleStore :=
  { m with raw := Cells.write 0 k v m.raw }

def SampleStore.setMissing (m : SampleStore) (k : Nat) (v : Bool) : SampleStore :=
  { m with missing := Cells.write false k v m.missing }

def SampleStore.setRestored (m : SampleStore) (k : Nat) (v : Int) : SampleStore :=
  { m with restored := Cells.write 0 k v m.restored }

def SampleStore.setCheckpoint (m : SampleStore) (slot : Nat) (c : Checkpoint) : SampleStore :=
  { m with checkpoints := Cells.write Checkpoint.zero slot c m.checkpoints }

def SampleStore.checkpoint (m : SampleStore) (slot : Nat) : Checkpoint :=
  Cells.read Checkpoint.zero slot m.checkpoints

/-! ### Accessors -/

/-- `f` applied to each entry of a vector, as a definition that evaluates by its entries. -/
def mapVec {α β : Type} {n : Nat} (f : α → β) (v : Vector α n) : Vector β n := Vector.ofFn fun i => f v[i.val]

def State.lane (s : State) (L : LaneId) : Lane := s.lanes[L.val]

def State.setLane (s : State) (L : LaneId) (l : Lane) : State := { s with lanes := s.lanes.set L.val l }

def State.modLane (s : State) (L : LaneId) (f : Lane → Lane) : State := s.setLane L (f (s.lane L))

def State.port (s : State) : Port → PortRec
  | .A => s.portA
  | .B => s.portB

def State.setPort (s : State) (p : Port) (r : PortRec) : State :=
  match p with
  | .A => { s with portA := r }
  | .B => { s with portB := r }

def State.modPort (s : State) (p : Port) (f : PortRec → PortRec) : State := s.setPort p (f (s.port p))

def State.line (s : State) (k : LineId) : Line := s.lines[k.val]

def State.setLine (s : State) (k : LineId) (l : Line) : State := { s with lines := s.lines.set k.val l }

def State.setStore (s : State) (m : SampleStore) : State := { s with store := m }

def State.setEngine (s : State) (e : Engine) : State := { s with engine := e }

/-- One more event of the part is taken. -/
def State.event (s : State) : State := { s with events := s.events + 1 }

/-- The lanes in ascending number. -/
def laneIds : List LaneId := [0, 1, 2, 3, 4, 5]

/-- The lanes counted upward from the one after `x`, wrapping from 5 to 0, `x` itself last (R91, R162). -/
def lanesAfter (x : LaneId) : List LaneId := [x + 1, x + 2, x + 3, x + 4, x + 5, x]

/-- The lines in ascending number. -/
def lineIds : List LineId := [0, 1, 2, 3]

/-- The lane an unchecked lane number names, if it is 0 to 5. -/
def laneOf (b : Byte) : Option LaneId := if h : b.toNat < 6 then some ⟨b.toNat, h⟩ else none

/-- The lane field of a header for lane `L`. -/
def laneByte (L : LaneId) : Byte := BitVec.ofNat 8 L.val

/-- The other port. -/
def otherPort : Port → Port
  | .A => .B
  | .B => .A

/-! ### Roundings and saturations (00_scope, Conventions) -/

/-- num / den, rounded to the nearest integer, halves away from zero. -/
def roundAway (num : Int) (den : Nat) : Int :=
  let q : Nat := (2 * num.natAbs + den) / (2 * den)
  if num < 0 then -(q : Int) else (q : Int)

/-- num / den for num ≥ 0, rounded to the nearest integer, halves up. -/
def roundHalfUp (num den : Nat) : Nat := (2 * num + den) / (2 * den)

/-- y / 256, rounded to the nearest integer, halves to even (R138). -/
def roundEven256 (y : Int) : Int :=
  let q := y / 256
  let r := y % 256
  if r < 128 then q else if 128 < r then q + 1 else if q % 2 = 0 then q else q + 1

def clampInt (lo hi x : Int) : Int := if x < lo then lo else if hi < x then hi else x

/-- Saturated to 24 bits. -/
def sat24 (x : Int) : Int := clampInt (-8388608) 8388607 x

/-- Saturated to 32 bits. -/
def sat32 (x : Int) : Int := clampInt (-2147483648) 2147483647 x

/-- A 32-bit saturating counter rises by one. -/
def satInc (n : Nat) : Nat := min (n + 1) Config.max32

/-- The value the repair stage gives at index `i` of a span of length `len` between anchors `a` and `b`
(R43, R97). -/
def interpolate (a b : Int) (len i : Nat) : Int := a + roundAway ((b - a) * ((i : Int) + 1)) (len + 1)

/-! ### The geometry of a lane (R10, R12) -/

def Lane.isOpen (l : Lane) : Bool := l.state != .closed

/-- The ring size N. -/
def Lane.ringSize (l : Lane) : Nat := l.ring.length

/-- The ordinal of the block that holds a position at or after the start position. -/
def Lane.ord (l : Lane) (pos : Nat) : Nat := (pos - l.start) / Config.blockLen

/-- The first position of block `j`. -/
def Lane.firstOf (l : Lane) (j : Nat) : Nat := l.start + Config.blockLen * j

/-- The ring entry that holds block `j` (R10). -/
def Lane.entryOf (l : Lane) (j : Nat) : Nat := j % l.ringSize

/-- The Sample Store slot that holds block `j`. -/
def Lane.slotOf (l : Lane) (j : Nat) : Nat := l.ring.getD (l.entryOf j) 0

def Lane.block (l : Lane) (j : Nat) : Block := l.blocks.getD (l.entryOf j) {}

def Lane.setBlock (l : Lane) (j : Nat) (b : Block) : Lane := { l with blocks := l.blocks.set (l.entryOf j) b }

/-- The ordinal of the oldest unreleased block (R10, R12). -/
def Lane.oldest (l : Lane) : Nat := (l.release - l.start + 255) / Config.blockLen

/-- The length of block `j`: 256, or that of the short final block (R6). -/
def Lane.lengthOf (l : Lane) (j : Nat) : Nat :=
  if l.final = some (l.firstOf j) then l.fill - l.firstOf j else Config.blockLen

/-- The last position of block `j`. -/
def Lane.lastOf (l : Lane) (j : Nat) : Nat := l.firstOf j + l.lengthOf j - 1

/-- The ordinals the ring can hold now: the oldest unreleased block and the N − 1 after it. -/
def Lane.ordinals (l : Lane) : List Nat := (List.range l.ringSize).map (l.oldest + ·)

/-- Block `j` has a ring entry of its own now. -/
def Lane.inRing (l : Lane) (j : Nat) : Bool := decide (l.oldest ≤ j) && decide (j < l.oldest + l.ringSize)

/-- The Sample Store address of a position. -/
def Lane.cell (l : Lane) (pos : Nat) : Nat :=
  Config.blockLen * l.slotOf (l.ord pos) + (pos - l.start) % Config.blockLen

/-! ### Raw samples and anchors -/

/-- The raw value the store holds for a position of the lane. -/
def State.rawAt (s : State) (L : LaneId) (pos : Nat) : Int := Cells.read 0 ((s.lane L).cell pos) s.store.raw

/-- The missing flag of a position of the lane. -/
def State.missingAt (s : State) (L : LaneId) (pos : Nat) : Bool :=
  Cells.read false ((s.lane L).cell pos) s.store.missing

/-- The value an anchor takes at a position (R52): 0 before the start position, at or beyond the fill point, or
where the position is missing. A position whose slot has since been overwritten by the block N ordinals later gives
the free value (assumption log 1). -/
def State.anchorAt (s : State) (L : LaneId) (pos : Nat) : Int :=
  let l := s.lane L
  if pos < l.start ∨ l.fill ≤ pos then 0
  else if pos + Config.blockLen * l.ringSize < l.fill then (Config.lostRaw s.events L.val pos).toInt
  else if s.missingAt L pos then 0
  else s.rawAt L pos

/-- The before-anchor of a span that starts at `start`. -/
def State.anchorBefore (s : State) (L : LaneId) (start : Nat) : Int :=
  if start = 0 then 0 else s.anchorAt L (start - 1)

/-- The write of an unlisted span into the raw store, with after-anchor `b` (R43). -/
def State.writeUnlisted (s : State) (L : LaneId) (start len : Nat) (b : Int) : State :=
  let a := s.anchorBefore L start
  s.setStore ((List.range len).foldl
    (fun m i => m.setRaw ((s.lane L).cell (start + i)) (interpolate a b len i)) s.store)

/-! ### Condition counters (R179) -/

/-- The place of a counter in the table of R179. -/
def Ctr.index : Ctr → Fin 16
  | .placed => 0
  | .missing => 1
  | .released => 2
  | .click => 3
  | .burst => 4
  | .gapPieces => 5
  | .splice => 6
  | .forced => 7
  | .veto => 8
  | .unlisted => 9
  | .truncated => 10
  | .duplicate => 11
  | .overrun => 12
  | .late => 13
  | .coast => 14
  | .lost => 15

def Lane.counter (l : Lane) (c : Ctr) : Nat := l.counters[c.index.val]

/-- "Counted as": the lane's counter rises by one, saturating (R179). -/
def Lane.count (l : Lane) (c : Ctr) : Lane :=
  { l with counters := l.counters.set c.index.val (satInc (l.counter c)) }

def State.count (s : State) (L : LaneId) (c : Ctr) : State := s.modLane L (Lane.count · c)

/-! ### Records and lists (R48, R53) -/

/-- The end of a record: its start plus its length less one. -/
def Record.last (r : Record) : Nat := r.start + r.length - 1

def Record.covers (r : Record) (pos : Nat) : Bool := decide (r.start ≤ pos) && decide (pos ≤ r.last)

/-- The record covers a position of `lo` to `hi`. -/
def Record.meets (r : Record) (lo hi : Nat) : Bool := decide (r.start ≤ hi) && decide (lo ≤ r.last)

/-- LIVE and APPLIED: what a span or a piece may merge with (R30, R32, R40, R41). -/
def Record.mergeable (r : Record) : Bool := r.state == .live && r.disp == .applied

/-- Insert by start. -/
def insertRecord (r : Record) : List Record → List Record
  | [] => [r]
  | x :: t => if r.start ≤ x.start then r :: x :: t else x :: insertRecord r t

def removeRecord (start : Nat) (l : List Record) : List Record := l.filter (·.start != start)

def updateRecord (start : Nat) (f : Record → Record) (l : List Record) : List Record :=
  l.map fun r => if r.start = start then f r else r

def findRecord (start : Nat) (l : List Record) : Option Record := l.find? (·.start == start)

/-- The record of greatest start at or before `n`. -/
def lastUpTo (n : Nat) (l : List Record) : Option Record := (l.filter fun r => decide (r.start ≤ n)).getLast?

/-- The records that start beyond `n`, in order. -/
def startingAfter (n : Nat) (l : List Record) : List Record := l.filter fun r => decide (n < r.start)

/-- A lane's list replaced. -/
def State.setList (s : State) (L : LaneId) (rs : List Record) : State := s.modLane L fun l => { l with list := rs }

/-! ### Working copies (R45, R148, R151) -/

/-- The profile of the ACTIVE working copy. -/
def Lane.activeProfile (l : Lane) : Profile := (l.active.map (·.profile)).getD Profile.default

/-- The profile of the working copy of a generation: the RETIRING copy if it is that one's, else the ACTIVE. -/
def Lane.profileOf (l : Lane) (generation : Nat) : Profile :=
  match l.retiring with
  | some w => if w.generation = generation then w.profile else l.activeProfile
  | none => l.activeProfile

/-- An unreleased block of the lane whose analysis has started carries the generation (R150). -/
def State.carried (s : State) (L : LaneId) (generation : Nat) : Bool :=
  let l := s.lane L
  l.ordinals.any fun j =>
    decide (l.firstOf j < l.analysis) && (s.store.checkpoint (l.slotOf j)).latch.generation == generation

end Sys2Proof.Machine
end

