-- ==== Sys2Proof/Machine/Notices.lean ====
section
/-! DEFINITION. The Notice Unit (Chapter 10): codes and categories, the folding of an occurrence into a port's
pending entry, and the choice of the entry the arbiter takes. -/

namespace Sys2Proof.Machine
open Sys2Proof

/-- The category of a code, as its category code less one (11.8). -/
def NoticeCode.category : NoticeCode → Fin 6
  | .laneOpened | .laneClosed | .laneDrained => 0
  | .lineCoast | .lineLost | .lineTracking => 1
  | .poolLow | .unlisted => 2
  | .overrun => 3
  | .grade => 4
  | .reset | .linkUp | .requestDropped => 5

/-- The byte of a notice code (11.8). -/
def NoticeCode.byte : NoticeCode → Byte
  | .laneOpened => 0x10#8
  | .laneClosed => 0x11#8
  | .laneDrained => 0x12#8
  | .lineCoast => 0x20#8
  | .lineLost => 0x21#8
  | .lineTracking => 0x22#8
  | .poolLow => 0x30#8
  | .unlisted => 0x31#8
  | .overrun => 0x40#8
  | .grade => 0x50#8
  | .reset => 0x60#8
  | .linkUp => 0x61#8
  | .requestDropped => 0x62#8

/-- The entry of a category for a lane, or for the unit: in ascending category, then lane, the unit last (R175). -/
def entryIndex (category : Fin 6) (who : Option LaneId) : Fin 42 :=
  match who with
  | some L => ⟨7 * category.val + L.val, by omega⟩
  | none => ⟨7 * category.val + 6, by omega⟩

/-- One occurrence folded into an entry (R175). -/
def foldNotice (code : NoticeCode) (pos detail order : Nat) : Option NoticeEntry → NoticeEntry
  | none => ⟨code, 1, pos, detail, order⟩
  | some e => ⟨code, min (e.count + 1) 255, pos, detail, e.order⟩

/-- An occurrence entered toward a port. -/
def PortRec.enter (r : PortRec) (code : NoticeCode) (who : Option LaneId) (pos detail order : Nat) : PortRec :=
  let i := entryIndex code.category who
  { r with entries := r.entries.set i.val (some (foldNotice code pos detail order r.entries[i.val])) }

/-- Raised toward one port. Every entry one event makes pending takes the event's number as its order, and among
them the entry's index decides (R175, R176). -/
def State.raiseTo (s : State) (p : Port) (code : NoticeCode) (who : Option LaneId) (pos detail : Nat) : State :=
  s.modPort p (·.enter code who pos detail s.events)

/-- Raised toward both ports. -/
def State.raise (s : State) (code : NoticeCode) (who : Option LaneId) (pos detail : Nat) : State :=
  (s.raiseTo .A code who pos detail).raiseTo .B code who pos detail

/-- Entry `i` is pending and its category unmasked (R176). -/
def PortRec.candidate (r : PortRec) (i : Fin 42) : Option NoticeEntry :=
  if r.masks[i.val / 7]'(by omega) then none else r.entries[i.val]

/-- The candidate of earliest order: the first in the table among those of the smallest order (R175, R176). -/
def PortRec.nextNotice (r : PortRec) : Option (Fin 42 × NoticeEntry) :=
  (List.finRange 42).foldl
    (fun best i =>
      match r.candidate i, best with
      | none, b => b
      | some e, none => some (i, e)
      | some e, some (j, b) => if e.order < b.order then some (i, e) else some (j, b))
    none

end Sys2Proof.Machine
end

