-- ==== Sys2Proof/Machine/Pool.lean ====
section
/-! DEFINITION. The Record Pool (R54 to R58), the loss of reservations by changes of records (R81), and the
counting of an unlisted span (R44). -/

namespace Sys2Proof.Machine
open Sys2Proof

/-- A sum over the lanes. -/
def State.sumLanes (s : State) (f : Lane → Nat) : Nat := (laneIds.map fun L => f (s.lane L)).sum

/-- The reserve a lane holds: Q of an open lane (R55). -/
def Lane.reserved (l : Lane) : Nat := if l.isOpen then l.reserve else 0

/-- Common records held by an open lane: U less Q, or 0 (R55). -/
def Lane.commonHeld (l : Lane) : Nat := if l.isOpen then l.list.length - l.reserve else 0

/-- The common share: 4096 less the reserves of the open lanes (R55). -/
def State.commonShare (s : State) : Nat := Config.poolSize - s.sumLanes Lane.reserved

/-- Free common records, which is also the unreserved pool of R2 (R55). -/
def State.freeCommon (s : State) : Nat := s.commonShare - s.sumLanes Lane.commonHeld

/-- The available count of a lane (R55). -/
def State.available (s : State) (L : LaneId) : Nat :=
  ((s.lane L).reserve - (s.lane L).list.length) + s.freeCommon

/-- A record can be had for the lane (R56). -/
def State.canTake (s : State) (L : LaneId) : Bool :=
  decide ((s.lane L).list.length < (s.lane L).reserve) || decide (0 < s.freeCommon)

/-- One lane's low flag and UNLISTED arming assessed against its available count (R44, R58). -/
def State.assessLane (s : State) (L : LaneId) : State :=
  let l := s.lane L
  if l.isOpen then
    let n := s.available L
    let t := s.setLane L { l with low := decide (n < Config.lowMark), armed := l.armed || decide (Config.lowMark < n) }
    if n < Config.lowMark ∧ l.low = false then t.raise .poolLow (some L) l.analysis n else t
  else s

/-- Every lane's available count assessed after a change of the pool. -/
def State.assess (s : State) : State := laneIds.foldl State.assessLane s

/-! ### Reservations lost (R81, R82) -/

/-- The reservation names a block of lane `L`, its lane record `l`, that holds a position of `lo` to `hi`. A short
final block ends at its own last position (R6). -/
def Reservation.reached (r : Reservation) (L : LaneId) (l : Lane) (lo hi : Nat) : Bool :=
  r.lane == L && decide (lo ≤ l.lastOf (l.ord r.first)) && decide (r.first ≤ hi)

def PortRec.loseIf (q : PortRec) (b : Reservation → Bool) : PortRec :=
  { q with reservation := q.reservation.filter fun r => !b r }

/-- A record over `lo` to `hi` of lane `L` is made, changed or removed by the part itself: both ports' reservations
on the blocks it touches are lost. -/
def State.recordTouched (s : State) (L : LaneId) (lo hi : Nat) : State :=
  (s.modPort .A (·.loseIf (·.reached L (s.lane L) lo hi))).modPort .B (·.loseIf (·.reached L (s.lane L) lo hi))

/-- The same by an EDIT of port `p`: the other port's reservation is lost. -/
def State.recordEdited (s : State) (p : Port) (L : LaneId) (lo hi : Nat) : State :=
  s.modPort (otherPort p) (·.loseIf (·.reached L (s.lane L) lo hi))

/-- Every reservation on the lane is lost (R82). -/
def State.dropReservations (s : State) (L : LaneId) : State :=
  (s.modPort .A (·.loseIf (·.lane == L))).modPort .B (·.loseIf (·.lane == L))

/-! ### Unlisted spans (R42, R44) -/

/-- The lane's unlisted slot is occupied. -/
def Lane.slotOccupied (l : Lane) : Bool :=
  (match l.span with
    | some sp => sp.form == .unlisted
    | none => false) ||
  (match l.piece with
    | some (.unlisted _ _) => true
    | _ => false)

/-- The start of the lane's open unlisted span, if it has one (R21, condition 4). -/
def Lane.unlistedStarts (l : Lane) : List Nat :=
  (match l.span with
    | some sp => if sp.form = .unlisted then [sp.start] else []
    | none => []) ++
  (match l.piece with
    | some (.unlisted start _) => [start]
    | _ => [])

/-- A span or piece is taken into the unlisted slot: counted, tallied in the block of its start, and raised if
the notice is armed (R44, R181). -/
def State.countUnlisted (s : State) (L : LaneId) (start : Nat) : State :=
  let t := s.modLane L fun l =>
    let j := l.ord start
    let b := l.block j
    { (l.setBlock j { b with tally := b.tally + 1 }).count .unlisted with armed := false }
  if (s.lane L).armed then t.raise .unlisted (some L) start 0 else t

end Sys2Proof.Machine
end

