-- ==== Sys2Proof/Machine/Flags.lean ====
section
/-! DEFINITION. The conditions and flags of blocks: the marks of edits and merges (R38, R75, R76), the
renderable, startable and release conditions (R21, R22, R90), the SYNC condition (R87), and whether a lane has a
slot for its next position (R13, R19, R23). -/

namespace Sys2Proof.Machine
open Sys2Proof

/-! ### Marks -/

/-- The lower of a mark and `n`; `n` where there is none. -/
def lowerMark (n : Nat) : Option Nat → Option Nat
  | none => some n
  | some m => some (min m n)

/-- What an event of R75 numbered `n` does to a block that the record touches (R76). -/
def Block.marked (b : Block) (n : Nat) : Block :=
  match b.state with
  | .rendered => { b with state := .dirty, mark := some n }
  | .dirty => { b with mark := lowerMark n b.mark }
  | .rendering => { b with touch := lowerMark n b.touch }
  | .free | .filling | .analysed => b

/-- Block `j` of the lane holds a position of `lo` to `hi`. -/
def Lane.blockMeets (l : Lane) (j lo hi : Nat) : Bool := decide (l.firstOf j ≤ hi) && decide (lo ≤ l.lastOf j)

/-- Mark with `n` every unreleased block that holds a position of `lo` to `hi` and satisfies `f`. -/
def Lane.markWhere (l : Lane) (lo hi n : Nat) (f : Block → Bool) : Lane :=
  l.ordinals.foldl
    (fun m j => if m.blockMeets j lo hi && f (m.block j) then m.setBlock j ((m.block j).marked n) else m) l

/-- The edit number raised by one, stopping at its largest value (R75). -/
def Lane.raiseEdit (l : Lane) : Lane := { l with edit := satInc l.edit }

/-- An edit that changed a record over `lo` to `hi`: the edit number is raised and the blocks marked (R75, R76). -/
def Lane.editMark (l : Lane) (lo hi : Nat) : Lane :=
  l.raiseEdit.markWhere lo hi l.raiseEdit.edit fun _ => true

/-- A joined record over `lo` to `hi` touches a block rendered at least once. -/
def Lane.meetsRendered (l : Lane) (lo hi : Nat) : Bool :=
  l.ordinals.any fun j => l.blockMeets j lo hi && (l.block j).rendered

/-- A merge (R38): if the joined record touches a block rendered at least once, the edit number is raised and each
such block marked. A block whose first render is in flight has `touched` set as R94 states; the touch mark is then
the edit number as the merge leaves it (assumption log 6). -/
def Lane.mergeMark (l : Lane) (lo hi : Nat) : Lane :=
  let m := if l.meetsRendered lo hi then l.raiseEdit else l
  m.markWhere lo hi m.edit fun b => b.rendered || b.state == .rendering

/-! ### Render and release conditions -/

/-- Condition 3 of R21 without its DRAINING case: the eight positions after the block have been analysed. -/
def Lane.pastMargin (l : Lane) (j : Nat) : Bool := decide (l.lastOf j + 9 ≤ l.analysis)

/-- The block is renderable (R21). Block j − 1 has been rendered at least once exactly when the render point has
reached block j (R12). -/
def Lane.renderable (l : Lane) (j : Nat) : Bool :=
  ((l.block j).state == .analysed || (l.block j).state == .dirty) &&
  decide (l.firstOf j ≤ l.render) &&
  (l.pastMargin j || (l.state == .draining && decide (l.lastOf j < l.analysis))) &&
  (l.list.all fun r => !(r.state == .opened && decide (r.start ≤ l.lastOf j))) &&
  l.unlistedStarts.all fun st => decide (l.lastOf j < st)

/-- An APPLIED record that touches the block holds an absent anchor (R74, R90). -/
def Lane.awaitsAnchor (l : Lane) (j : Nat) : Bool :=
  l.list.any fun r =>
    r.disp == .applied && r.meets (l.firstOf j) (l.lastOf j) && (r.before.isNone || r.after.isNone)

/-- The block is startable (R90). -/
def Lane.startable (l : Lane) (j : Nat) : Bool :=
  l.isOpen && l.renderable j && !l.awaitsAnchor j && (l.pastMargin j || (l.final.isSome && l.finished))

/-- The block of the lane the engine takes: the oldest startable DIRTY one, else the oldest startable ANALYSED
one (R92). -/
def Lane.nextBlock (l : Lane) : Option Nat :=
  let c := l.ordinals.filter l.startable
  match c.find? fun j => (l.block j).state == .dirty with
  | some j => some j
  | none => c.head?

/-- The oldest unreleased block is offered for release to its sink port `q` (R22). -/
def Lane.offered (l : Lane) (q : PortRec) : Bool :=
  let k := l.oldest
  l.isOpen && (l.block k).state == .rendered &&
  (l.state == .draining || (List.range l.hold).all fun i => (l.block (k + 1 + i)).rendered) &&
  q.link == .up && q.delivery

/-- The lane presents a LOG frame to its sink port `q` (R62, R162, R167). -/
def Lane.presentsLog (l : Lane) (q : PortRec) : Bool :=
  l.isOpen && !l.logQueue.isEmpty && q.link == .up && q.delivery

/-- The lane presents a RESTORED frame: only while no LOG frame of it remains (R61, R162). -/
def Lane.presentsRestored (l : Lane) (q : PortRec) : Bool := l.logQueue.isEmpty && l.offered q

/-- A block of the lane still holds back a SYNC that captured `n` (R87). -/
def Lane.holdsSync (l : Lane) (n : Nat) : Bool :=
  let atOrBelow : Option Nat → Bool := fun m => m.any fun x => decide (x ≤ n)
  l.ordinals.any fun j =>
    let b := l.block j
    (b.state == .dirty && atOrBelow b.mark) ||
    (b.state == .rendering && (atOrBelow b.mark || atOrBelow b.touch))

/-! ### Slots for the next position -/

/-- The block at the fill point has a ring entry, and no final block has been fixed. At a fill point of 4,294,967,296
there is no next position to place (R24), and so no slot that can take it, full or not (R19; assumption log 18). -/
def Lane.mayFill (l : Lane) : Bool :=
  l.isOpen && decide (l.fill < Config.topPos) && l.final.isNone && l.inRing (l.ord l.fill)

/-- The lane has a FILLING slot that can take placements (R13). -/
def Lane.canPlace (l : Lane) : Bool := l.mayFill && (l.block (l.ord l.fill)).state == .filling

/-- The slot for the block at the fill point is FREE (R15, R19, R23). -/
def Lane.fillSlotFree (l : Lane) : Bool := l.mayFill && (l.block (l.ord l.fill)).state == .free

/-- The slot for the block at the fill point becomes FILLING, its tally 0 (R11, R181). -/
def Lane.openFillSlot (l : Lane) : Lane := l.setBlock (l.ord l.fill) { state := .filling }

end Sys2Proof.Machine
end

