-- ==== Sys2Proof/Machine/Placement.lean ====
section
/-! DEFINITION. The Lane Controller's placement (Chapter 1, 1.4): merges of records (R37), GAP pieces (R16, R40 to
R43), the placing of one position, of a frame and of the landing buffer (R13 to R19, R24), HOLD and its flow entry
(R18, R163). -/

namespace Sys2Proof.Machine
open Sys2Proof

/-! ### Joined records (R37) -/

/-- The precedence of kinds, SPLICE the highest (R37, R49). -/
def Kind.rank : Kind → Nat
  | .splice => 4
  | .gap => 3
  | .forced => 2
  | .burst => 1
  | .click => 0

/-- A kind whose records carry a ratio (R36, R48). -/
def Kind.hasRatio : Kind → Bool
  | .click | .burst => true
  | .gap | .forced | .splice => false

/-- The joined record of `r`, the growing span's or piece's, with `n`: extended to the union and OPEN, of the
higher kind and that kind's origin, of the larger ratio if the kind has one, with before-anchor `before` (R37). -/
def Record.join (r n : Record) (before : Int) : Record :=
  let kind := if r.kind.rank < n.kind.rank then n.kind else r.kind
  { start := r.start
    length := max r.last n.last - r.start + 1
    kind := kind
    origin := if r.kind.rank < n.kind.rank then n.origin else r.origin
    state := .opened
    disp := .applied
    ratio := if kind.hasRatio then max r.ratio n.ratio else 0
    before := some before
    after := none }

/-- The marking of a merge whose joined record covers `lo` to `hi`, and the reservations it loses (R38, R81). -/
def State.merged (s : State) (L : LaneId) (lo hi : Nat) : State :=
  (s.modLane L (Lane.mergeMark · lo hi)).recordTouched L lo hi

/-! ### GAP pieces -/

/-- A piece that begins at `m`: the record of R16. -/
def gapRecord (m : Nat) (before : Int) : Record where
  start := m
  length := 1
  kind := .gap
  origin := .link
  state := .opened
  disp := .applied
  ratio := 0
  before := some before
  after := none

/-- The end of the current piece. -/
def Lane.pieceEnd (l : Lane) : Option Nat :=
  match l.piece with
  | none => none
  | some (.listed st) => (findRecord st l.list).map Record.last
  | some (.unlisted st len) => some (st + len - 1)

/-- The current piece is `p`, of the run at the fill point. -/
def State.setPiece (s : State) (L : LaneId) (p : Option Piece) : State :=
  s.modLane L fun l => { l with piece := p, runEnded := false }

/-- The position after the current piece's end has been placed with raw value `x` (0 where missing): the record
becomes LIVE with that after-anchor, an unlisted piece is written (R16, R40, R43). -/
def State.closePiece (s : State) (L : LaneId) (x : Int) : State :=
  let l := s.lane L
  match l.piece with
  | none => s
  | some (.listed st) =>
    match findRecord st l.list with
    | none => s.setPiece L none
    | some r =>
      ((s.setList L (updateRecord st (fun r => { r with state := .live, after := some x }) l.list)).setPiece L
        none).recordTouched L r.start r.last
  | some (.unlisted st len) => (s.writeUnlisted L st len x).setPiece L none

/-- The attempt leaves the position outside every piece (R39, R40). -/
def State.dropGap (s : State) (L : LaneId) : State := s.count L .truncated

/-- The same, met by the record that starts at `st`, which drops the run's positions up to its end + 1 (R41). -/
def State.stopGap (s : State) (L : LaneId) (st : Nat) : State :=
  (s.modLane L fun l => { l with gapStop := some st }).dropGap L

/-- Record `n` ahead is absorbed into the current listed piece that starts at `st` (R37, R41). -/
def State.absorbAhead (s : State) (L : LaneId) (st : Nat) (n : Record) : State :=
  let l := s.lane L
  let joined := updateRecord st (fun r => r.join n (s.anchorBefore L st)) (removeRecord n.start l.list)
  ((s.setList L joined).assess).merged L st ((findRecord st joined).elim st Record.last)

/-- A piece opens at `m`: it takes a record, or the unlisted slot, or is dropped (R16, R42). -/
def State.takePiece (s : State) (L : LaneId) (m : Nat) : State :=
  let l := s.lane L
  if s.canTake L then
    let t := s.modLane L fun l =>
      { l.count .gapPieces with
        list := insertRecord (gapRecord m (s.anchorBefore L m)) l.list
        piece := some (.listed m)
        runEnded := false }
    t.assess.recordTouched L m m
  else if l.slotOccupied then s.dropGap L
  else ((s.count L .gapPieces).setPiece L (some (.unlisted m 1))).countUnlisted L m

/-- A piece that opens at `m` is settled forward (R40, R41). -/
def State.openPiece (s : State) (L : LaneId) (m : Nat) : State :=
  match (startingAfter m (s.lane L).list).head? with
  | none => s.takePiece L m
  | some n =>
    if m + 1 < n.start then s.takePiece L m
    else if n.mergeable && decide (n.last + 1 - m ≤ Config.maxSpan) && s.canTake L then
      (s.takePiece L m).absorbAhead L m n
    else s.stopGap L n.start

/-- LIVE APPLIED record `p` becomes the run's piece by a backward merge, extended to `m` (R37, R40); the extension
is settled forward as any is (R41). -/
def State.reopenPiece (s : State) (L : LaneId) (p : Record) (m : Nat) : State :=
  let l := s.lane L
  let reach := max p.last m
  let higher := p.kind.rank < Kind.gap.rank
  let joined : Record :=
    { start := p.start
      length := reach - p.start + 1
      kind := if higher then .gap else p.kind
      origin := if higher then .link else p.origin
      state := .opened
      disp := .applied
      ratio := 0
      before := some (s.anchorBefore L p.start)
      after := none }
  let opened := ((s.setList L (updateRecord p.start (fun _ => joined) l.list)).setPiece L
    (some (.listed p.start))).merged L p.start reach
  match (startingAfter p.start l.list).head? with
  | none => opened
  | some n =>
    if reach + 1 < n.start then opened
    else if n.mergeable && decide (max reach n.last + 1 - p.start ≤ Config.maxSpan) then
      opened.absorbAhead L p.start n
    else s.stopGap L n.start

/-- A new-piece attempt at missing position `m` (R40). `exempt` is the start of the piece that ends at m − 1, if that is
of the same run. -/
def State.attemptPiece (s : State) (L : LaneId) (m : Nat) (exempt : Option Nat) : State :=
  let l := s.lane L
  let stopped := l.gapStop.any fun st => (findRecord st l.list).any fun n => decide (m ≤ n.last + 1)
  if stopped then s.dropGap L
  else
    let t := s.modLane L fun l => { l with gapStop := none }
    match lastUpTo m l.list with
    | none => t.openPiece L m
    | some p =>
      if exempt = some p.start ∨ p.last + 1 < m then t.openPiece L m
      else if p.mergeable && decide (max p.last m + 1 - p.start ≤ Config.maxSpan) then t.reopenPiece L p m
      else t.dropGap L

/-- The current piece ends at m − 1 and may not be extended to `m`: it closes with after-anchor 0, and `m` is an
attempt of its own. -/
def State.nextPiece (s : State) (L : LaneId) (m : Nat) (own : Option Nat) : State :=
  (s.closePiece L 0).attemptPiece L m own

/-- The start of the piece that starts at `st`, if it is of the run of the position at the fill point: no valid sample
has been placed inside it since it was taken or last extended (R16, R40; assumption log 8). -/
def Lane.ownPiece (l : Lane) (st : Nat) : Option Nat := if l.runEnded then none else some st

/-- Missing position `m` directly after the current piece (R16, R41). A position that extends a piece makes it of its own
run. The record next beyond an UNLISTED piece is the
first that starts after the piece's start, so that a SPLICE laid over positions the piece covers stops it (assumption
log 19). -/
def State.extendPiece (s : State) (L : LaneId) (m : Nat) : State :=
  let l := s.lane L
  match l.piece with
  | none => s.attemptPiece L m none
  | some (.listed st) =>
    match findRecord st l.list with
    | none => s.attemptPiece L m none
    | some r =>
      if r.length < Config.maxSpan then
        let grown := ((s.setList L (updateRecord st (fun r => { r with length := r.length + 1 }) l.list)).setPiece L
          (some (.listed st))).recordTouched L st m
        match (startingAfter st l.list).head? with
        | none => grown
        | some n =>
          if m + 1 < n.start then grown
          else if n.mergeable && decide (max m n.last + 1 - st ≤ Config.maxSpan) then grown.absorbAhead L st n
          else (s.modLane L fun l => { l with gapStop := some n.start }).nextPiece L m (l.ownPiece st)
      else s.nextPiece L m (l.ownPiece st)
  | some (.unlisted st len) =>
    if len < Config.maxSpan then
      match (startingAfter st l.list).head? with
      | none => s.setPiece L (some (.unlisted st (len + 1)))
      | some n =>
        if m + 1 < n.start then s.setPiece L (some (.unlisted st (len + 1)))
        else (s.modLane L fun l => { l with gapStop := some n.start }).nextPiece L m none
    else s.nextPiece L m none

/-- The GAP pieces at the placing of missing position `m` (R16). A position inside the current piece, which a
merge may have carried beyond the fill point, needs nothing. -/
def State.coverMissing (s : State) (L : LaneId) (m : Nat) : State :=
  match (s.lane L).pieceEnd with
  | none => s.attemptPiece L m none
  | some e => if m ≤ e then s else s.extendPiece L m

/-- The GAP pieces at the placing of position `m` with sample `x` (R16). Inside the current piece, which a merge may have
carried beyond the fill point, it ends the run. -/
def State.coverValid (s : State) (L : LaneId) (m : Nat) (x : Int) : State :=
  let t := s.modLane L fun l => { l with gapStop := none }
  match (s.lane L).pieceEnd with
  | none => t
  | some e => if m ≤ e then t.modLane L fun l => { l with runEnded := true } else t.closePiece L x

/-! ### HOLD and the flow list -/

/-- A HOLD or GO entered in the flow list of the lane's source port, unless its link is DOWN (R163). -/
def State.enterFlow (s : State) (L : LaneId) (hold : Bool) : State :=
  let l := s.lane L
  s.modPort l.source fun q =>
    if q.link = .up then { q with flow := q.flow.filter (·.lane != L) ++ [⟨L, hold, l.fill⟩] } else q

/-- A block has completed and the lane turns to the next ring entry (R15, R18, R24). -/
def State.turnRing (s : State) (L : LaneId) : State :=
  let l := s.lane L
  if l.fill = Config.topPos then s
  else if l.fillSlotFree then s.setLane L l.openFillSlot
  else if l.held then s
  else (s.setLane L { l with held := true, afterHold := 0 }).enterFlow L true

/-! ### Placing -/

/-- The position at the fill point is placed, with a sample or as missing (R14 to R16). -/
def State.placeOne (s : State) (L : LaneId) (v : Option Int) : State :=
  let m := (s.lane L).fill
  let k := (s.lane L).cell m
  let stored := s.setStore ((s.store.setRaw k (v.getD 0)).setMissing k v.isNone)
  let covered :=
    match v with
    | some x => (stored.count L .placed).coverValid L m x
    | none => (stored.count L .missing).coverMissing L m
  let t := covered.modLane L fun l => { l with fill := l.fill + 1 }
  if (m - (s.lane L).start) % Config.blockLen = 255 then t.turnRing L else t

/-- Trimming, forward jump and the frame's own positions, as long as the lane has a slot (R14, R15). What remains
is the unplaced rest. -/
def placeRun (L : LaneId) : Nat → State → Landed → State × Option Landed
  | 0, s, e => (s, some e)
  | fuel + 1, s, e =>
    match e.samples with
    | [] => (s, none)
    | v :: t =>
      let l := s.lane L
      if e.start < l.fill then placeRun L fuel s { e with start := e.start + 1, samples := t }
      else if !l.canPlace then (s, some { e with resumed := true })
      else if l.fill < e.start then placeRun L fuel (s.placeOne L none) e
      else placeRun L fuel (s.placeOne L v) { e with start := e.start + 1, samples := t }

/-- One frame, or the rest of one, is placed (R14). A frame that loses samples by trimming is a DUPLICATE. -/
def State.placeFrame (s : State) (L : LaneId) (e : Landed) : State × Option Landed :=
  let l := s.lane L
  let t := if e.start < l.fill ∧ e.resumed = false ∧ e.samples ≠ [] then s.count L .duplicate else s
  placeRun L (Config.blockLen * (l.ringSize + 2)) t e

def State.setLanding (s : State) (L : LaneId) (es : List Landed) : State :=
  s.modLane L fun l => { l with landing := es }

/-- The lane can place its next entry: it has a slot, or its fill point has reached the top (R13, R24). -/
def Lane.takesFrame (l : Lane) : Bool := l.canPlace || decide (l.fill = Config.topPos)

/-- Landing entries are placed, oldest first, until none is left or the ring is full again (R17). -/
def placeEntries (L : LaneId) : List Landed → State → State
  | [], s => s.setLanding L []
  | e :: t, s =>
    if (s.lane L).takesFrame then
      match s.placeFrame L e with
      | (s', none) => placeEntries L t s'
      | (s', some r) => s'.setLanding L (r :: t)
    else s.setLanding L (e :: t)

/-- An accepted frame is placed at once, or joins the landing buffer (R13, R15). -/
def State.acceptFrame (s : State) (L : LaneId) (e : Landed) : State :=
  let l := s.lane L
  if l.landing.isEmpty && l.takesFrame then
    match s.placeFrame L e with
    | (s', none) => s'
    | (s', some r) =>
      let t := s'.setLanding L [r]
      if l.held then t else t.modLane L fun l => { l with afterHold := 1 }
  else s.setLanding L (l.landing ++ [e])

/-- Samples of positions above 4,294,967,295 are cut off, counted once and raised as OVERRUN (R13). -/
def State.cutFrame (s : State) (L : LaneId) (e : Landed) : State × Landed :=
  if Config.topPos < e.start + e.samples.length then
    ((s.count L .overrun).raise .overrun (some L) Config.topPos 0,
      { e with samples := e.samples.take (Config.topPos - e.start) })
  else (s, e)

/-- The fate of a decoded SAMPLES frame that arrived on port `p` for lane `L` (R13). -/
def State.samplesFor (s : State) (p : Port) (L : LaneId) (e : Landed) : State :=
  let l := s.lane L
  if l.state = .closed ∨ l.source ≠ p then s.modPort p fun q => { q with stray := satInc q.stray }
  else if l.state = .draining then s.count L .late
  else if l.held ∧ l.afterHold = Config.afterHoldMax then
    (s.count L .overrun).raise .overrun (some L) e.start 0
  else
    let t := if l.held then s.setLane L { l with afterHold := l.afterHold + 1 } else s
    let (t, e) := t.cutFrame L e
    t.acceptFrame L e

end Sys2Proof.Machine
end

