-- ==== Sys2Proof/Machine/Analyser.lean ====
section
/-! DEFINITION. The Click Analyser (Chapter 2): the latch at a block's start (R20, R123, R124), the taking of a
position (R26 to R36), merges (R37, R38), truncation (R39), and the finishing of a drained lane (R46, R63). -/

namespace Sys2Proof.Machine
open Sys2Proof

/-! ### The latch -/

/-- Ticks per sample (R124). -/
def Rate.ticks : Rate → Nat
  | .k48 => 512
  | .k96 => 256

/-- Samples per second. -/
def Rate.hertz : Rate → Nat
  | .k48 => 48000
  | .k96 => 96000

/-- The hum stage of a block is bypassed (R124, R130). -/
def humBypassed (m : HumMode) (line : LineState) : Bool :=
  m == .tracked && (line == .searching || line == .disabled)

/-- The increment formed at a latch (R124). -/
def incrementOf (p : Profile) (rate : Rate) (line : LineState) (ps : Nat) : Nat :=
  match p.mode with
  | .fixed => roundHalfUp (4294967296 * p.f) (100 * rate.hertz)
  | .tracked =>
    if humBypassed p.mode line then 0 else roundHalfUp (4294967296 * rate.ticks) (ps * p.d)

/-- The latch a lane takes now (R123). -/
def State.latchFor (s : State) (L : LaneId) : Latch :=
  let l := s.lane L
  let state := (l.line.map fun k => (s.line k).state).getD .disabled
  let ps := (l.line.map fun k => (s.line k).ps).getD 0
  { line := state
    increment := incrementOf l.activeProfile l.rate state ps
    generation := (l.active.map (·.generation)).getD 0 }

/-- Start of analysis of block `j`: the latch goes into its checkpoint (R20, R123). -/
def State.latchBlock (s : State) (L : LaneId) (j : Nat) : State :=
  let n := (s.lane L).slotOf j
  s.setStore (s.store.setCheckpoint n { s.store.checkpoint n with latch := s.latchFor L })

/-! ### Anchors and the close of a span -/

def State.setSpan (s : State) (L : LaneId) (sp : Option Span) : State := s.modLane L fun l => { l with span := sp }

/-- A WAITING span's after-anchor `x` is taken: a LISTED span's record becomes LIVE, an UNLISTED span is written;
the lane has no span (R35, R43). -/
def State.endSpan (s : State) (L : LaneId) (sp : Span) (x : Int) : State :=
  let l := s.lane L
  match sp.form with
  | .listed =>
    ((s.setList L (updateRecord sp.start (fun r => { r with state := .live, after := some x }) l.list)).setSpan L
      none).recordTouched L sp.start sp.last
  | .unlisted => (s.writeUnlisted L sp.start (sp.last + 1 - sp.start) x).setSpan L none

/-- A record takes `x` for an anchor at position `n` it still holds absent (R35, R52, R74): a LIVE one, and a VETOED
SPLICE that the release of an earlier block has FROZEN. The anchors of an OPEN record are its span's or its piece's. -/
def Record.takeAnchor (n : Nat) (x : Int) (r : Record) : Record :=
  if r.state = .opened then r
  else
    { r with
      before := if r.before.isNone ∧ r.start = n + 1 then some x else r.before
      after := if r.after.isNone ∧ r.last + 1 = n then some x else r.after }

/-- Every absent anchor due at position `n` is taken, and each record that takes one is a changed record (R81). -/
def State.takeAnchors (s : State) (L : LaneId) (n : Nat) : State :=
  let l := s.lane L
  let x := s.anchorAt L n
  let changed := l.list.filter fun r => r.takeAnchor n x != r
  changed.foldl (fun t r => t.recordTouched L r.start r.last) (s.setList L (l.list.map (Record.takeAnchor n x)))

/-- Anchors due at position `n` (R26, step 1). -/
def State.dueAnchors (s : State) (L : LaneId) (n : Nat) : State :=
  let t : State :=
    match (s.lane L).span with
    | some sp => if sp.phase = .waiting ∧ sp.last + 1 = n then s.endSpan L sp (s.anchorAt L n) else s
    | none => s
  t.takeAnchors L n

/-- The close of a GROWING span (R34). A span that took its own record is counted by the kind that record has. -/
def State.closeSpan (s : State) (L : LaneId) (sp : Span) : State :=
  let t := s.setSpan L (some { sp with phase := .waiting })
  match sp.form with
  | .unlisted => t
  | .listed =>
    let rs := updateRecord sp.start
      (fun r => if r.kind = .click ∧ sp.lmax < r.length then { r with kind := .burst } else r) (s.lane L).list
    let u := (t.setList L rs).recordTouched L sp.start sp.last
    if sp.own then
      match (findRecord sp.start rs).map Record.kind with
      | some .click => u.count L .click
      | some .burst => u.count L .burst
      | _ => u
    else u

/-! ### Settling -/

/-- The ratio of a peak, in quarters (R36). -/
def ratioOf (m e : Nat) : Nat := if e = 0 then 255 else min (64 * m / e) 255

/-- The end `e` of a span that starts at `start`, settled against the records ahead (R32): the records absorbed,
the end, and the start of the record that truncates it, if one does. -/
def settleAhead (merges : Bool) (start : Nat) : Nat → List Record → List Record × Nat × Option Nat
  | e, [] => ([], e, none)
  | e, n :: t =>
    if e + 1 < n.start then ([], e, none)
    else if merges && n.mergeable && decide (max e n.last + 1 - start ≤ Config.maxSpan) then
      let (a, e', stop) := settleAhead merges start (max e n.last) t
      (n :: a, e', stop)
    else ([], e, some n.start)

/-- How a span that would start at `s0` and reach `reach` meets the record behind it (R30, step 2). -/
inductive Behind where
  | clear
  | merge (p : Record)
  | truncate (start : Nat)
  deriving DecidableEq, Repr

def settleBehind (n s0 reach : Nat) (l : List Record) : Behind :=
  match lastUpTo n l with
  | none => .clear
  | some p =>
    if p.last + 1 < s0 then .clear
    else if p.mergeable && decide (max p.last reach + 1 - p.start ≤ Config.maxSpan) then .merge p
    else .truncate (p.last + 2)

/-- The record of a LISTED span with entry `sp` (R31, R33, R36): `base`, over the span's extent. -/
def Span.record (sp : Span) (base : Record) : Record :=
  { base with
    length := sp.last + 1 - sp.start
    ratio := if base.kind.hasRatio then max sp.floorRatio (ratioOf sp.peakM sp.peakE) else 0 }

/-- The record a span that does not merge takes (R31). -/
def spanRecord (start : Nat) (before : Int) : Record where
  start := start
  length := 1
  kind := .click
  origin := .detector
  state := .opened
  disp := .applied
  ratio := 0
  before := some before
  after := none

/-- The largest ratio of the merged CLICK and BURST records (R36). -/
def mergedRatio (ns : List Record) (r0 : Nat) : Nat :=
  ns.foldl (fun r n => if n.kind.hasRatio then max r n.ratio else r) r0

/-- Marks and reservations of `k` merges whose joined record covers `lo` to `hi`. -/
def mergedTimes (L : LaneId) (lo hi : Nat) : Nat → State → State
  | 0, s => s
  | k + 1, s => mergedTimes L lo hi k (s.merged L lo hi)

/-- The list of a lane whose span has entry `sp` and has absorbed `ns`, `base` being the span's record before:
the absorbed records removed and freed, the span's record joined with them over the span's extent (R32, R37). -/
def spanList (sp : Span) (base : Record) (ns : List Record) (before : Int) (l : List Record) : List Record :=
  let joined := ns.foldl (fun r n => r.join n before) base
  let others := ns.foldl (fun l n => removeRecord n.start l) l
  updateRecord sp.start (fun _ => sp.record joined) others

/-! ### Opening and growing -/

/-- A span is dropped (R39). -/
def State.dropSpan (s : State) (L : LaneId) : State := s.count L .truncated

/-- The span opens, its extent settled: `base` is the record it takes or merges into, `ns` what it absorbs, `own`
whether the record is its own (R30, R31, R37). -/
def State.beginListed (s : State) (L : LaneId) (sp : Span) (base : Record) (ns : List Record) : State :=
  let before := s.anchorBefore L sp.start
  let taken :=
    if sp.own then
      (s.modLane L fun l => { l with list := insertRecord (spanRecord sp.start before) l.list }).assess
    else s
  let t := (taken.setList L (spanList sp base ns before (taken.lane L).list)).assess
  let u := mergedTimes L sp.start sp.last (ns.length + (if sp.own then 0 else 1)) t
  (u.setSpan L (some sp)).recordTouched L sp.start sp.last

/-- A flagged sample at `n`, of measure `m` against `e`, opens a span (R30 to R32, R42). -/
def State.openSpan (s : State) (L : LaneId) (n m e : Nat) : State :=
  let l := s.lane L
  let g := l.activeProfile.g
  let s0 := max (n - g) l.start
  let behind := settleBehind n s0 (n + g) l.list
  let start :=
    match behind with
    | .clear => s0
    | .merge p => p.start
    | .truncate x => x
  let merges := match behind with
    | .merge _ => true
    | _ => false
  let listed := merges || s.canTake L
  let cap := min (start + (Config.maxSpan - 1)) Config.maxPos
  let (ns, e1, stop) := settleAhead listed start (min (n + g) cap) (startingAfter n l.list)
  let dropped := decide (n < start) || (!listed && l.slotOccupied) || stop.any fun x => decide (x < n + 2)
  if dropped then s.dropSpan L
  else
    let base :=
      match behind with
      | .merge p => { p with state := .opened, after := none, before := some (s.anchorBefore L start) }
      | _ => spanRecord start (s.anchorBefore L start)
    let sp : Span :=
      { form := if listed then .listed else .unlisted
        phase := .growing
        start := start
        last := (stop.map (· - 2)).getD e1
        cap := cap
        pinned := stop.isSome
        lastFlag := n
        guard := g
        lmax := l.activeProfile.lmax
        peakM := m
        peakE := e
        opened := n
        own := listed && !merges
        floorRatio := mergedRatio ns (if merges && base.kind.hasRatio then base.ratio else 0) }
    if listed then s.beginListed L sp base ns
    else (s.setSpan L (some sp)).countUnlisted L start

/-- A flagged sample at `n` grows the GROWING span (R33). -/
def State.growSpan (s : State) (L : LaneId) (sp : Span) (n m e : Nat) : State :=
  let l := s.lane L
  let sp1 :=
    if sp.peakM < m then { sp with lastFlag := n, peakM := m, peakE := e } else { sp with lastFlag := n }
  let want := min (n + sp.guard) sp.cap
  let (ns, last, pinned) :=
    if !sp.pinned && decide (sp.last < want) then
      let (ns, e1, stop) := settleAhead (sp.form == .listed) sp.start want (startingAfter sp.opened l.list)
      (ns, (stop.map fun x => max sp.last (x - 2)).getD e1, stop.isSome)
    else ([], sp.last, sp.pinned)
  let sp2 := { sp1 with last := last, pinned := pinned, floorRatio := mergedRatio ns sp1.floorRatio }
  let t := s.setSpan L (some sp2)
  match sp.form, findRecord sp.start l.list with
  | .listed, some r =>
    let base := if ns.isEmpty then r else { r with before := some (s.anchorBefore L sp.start) }
    let rs := spanList sp2 base ns (s.anchorBefore L sp.start) l.list
    let u := (t.setList L rs).assess
    let v := mergedTimes L sp2.start sp2.last ns.length u
    if rs = l.list then v else v.recordTouched L sp2.start sp2.last
  | _, _ => t

/-! ### The taking of a position -/

/-- A valid sample enters the history (R26, step 3). -/
def Lane.enterHistory (l : Lane) (x : Int) : Lane :=
  { l with x2 := l.x1, x1 := x, suspend := min (l.suspend + 1) 2 }

/-- The detection measure of R28. -/
def Lane.measure (l : Lane) (x : Int) : Nat := (x - 2 * l.x1 + l.x2).natAbs

/-- The threshold base of R28: the larger of E and Emin. -/
def Lane.thresholdBase (l : Lane) (p : Profile) : Nat := max l.envelope.toNat p.emin

/-- The sample is flagged (R28). -/
def Lane.flags (l : Lane) (p : Profile) (x : Int) : Bool := decide (l.thresholdBase p * p.t < 64 * l.measure x)

/-- The envelope after an unflagged tested sample of measure `m` (R29). -/
def envelopeAfter (e : Int) (m : Nat) : Int := e + asr (16 * (m : Int) - e) 6

/-- A tested position (R26, step 4). -/
def State.testPosition (s : State) (L : LaneId) (n : Nat) (x : Int) : State :=
  let l := s.lane L
  let p := l.profileOf (s.store.checkpoint (l.slotOf (l.ord n))).latch.generation
  let m := l.measure x
  if l.flags p x then
    let t : State :=
      match l.span with
      | none => s.openSpan L n m (l.thresholdBase p)
      | some sp => if sp.phase = .growing then s.growSpan L sp n m (l.thresholdBase p) else s
    t.modLane L (Lane.enterHistory · x)
  else s.setLane L ({ l with envelope := envelopeAfter l.envelope m }.enterHistory x)

/-- Classification, history and test (R26, steps 2 to 4; R27). -/
def State.classify (s : State) (L : LaneId) (n : Nat) : State :=
  let l := s.lane L
  if s.missingAt L n || l.list.any fun r => r.mergeable && r.covers n then s.setLane L { l with suspend := 0 }
  else if l.suspend < 2 then s.setLane L (l.enterHistory (s.rawAt L n))
  else s.testPosition L n (s.rawAt L n)

/-- The GROWING span closes when its end is taken (R26, step 5). -/
def State.closeAt (s : State) (L : LaneId) (n : Nat) : State :=
  match (s.lane L).span with
  | some sp => if sp.phase = .growing ∧ sp.last = n then s.closeSpan L sp else s
  | none => s

/-- The last position of a block has been taken: the block becomes ANALYSED (R20; R26, step 6). -/
def Lane.blockEnd (l : Lane) (n : Nat) : Lane :=
  let j := l.ord n
  if l.lastOf j = n ∧ (l.block j).state = .filling then l.setBlock j { l.block j with state := .analysed } else l

/-- The analyser may take a position of the lane (R20). -/
def Lane.canAnalyse (l : Lane) : Bool := l.isOpen && decide (l.analysis < l.fill)

/-- The taking of the lane's next position (R26). -/
def State.analyseNext (s : State) (L : LaneId) : State :=
  let n := (s.lane L).analysis
  let l := s.lane L
  let latched := if (n - l.start) % Config.blockLen = 0 then s.latchBlock L (l.ord n) else s
  let t := ((latched.dueAnchors L n).classify L n).closeAt L n
  t.modLane L fun l => { l.blockEnd n with analysis := n + 1 }

/-! ### The finishing of a DRAINING lane (R46, R63) -/

/-- The final block is fixed, every placed position has been taken, and the finishing is still to come (R46). It comes
once: a SPLICE taken after it takes 0 at its taking (assumption log 20). -/
def Lane.finishDue (l : Lane) : Bool :=
  l.state == .draining && l.final.isSome && decide (l.analysis = l.fill) && !l.finished

/-- A record takes 0 for every anchor it still holds absent, and an OPEN one becomes LIVE (R6, R46, R63). -/
def Record.finish (r : Record) : Record :=
  { r with
    state := if r.state = .opened then .live else r.state
    before := some (r.before.getD 0)
    after := some (r.after.getD 0) }

/-- The analyser finishes the lane (R46): a GROWING span closes at the last placed position, every absent anchor is
0, an unlisted span or piece is written, and the final block is ANALYSED (R6). -/
def State.finishAnalysis (s : State) (L : LaneId) : State :=
  let l := s.lane L
  let closed : State :=
    match l.span with
    | some sp =>
      if sp.phase = .growing then
        let sp1 := { sp with last := min sp.last (l.fill - 1) }
        let rs := updateRecord sp.start (fun r => { r with length := sp1.last + 1 - sp.start }) l.list
        (if sp.form = .listed then s.setList L rs else s).closeSpan L sp1
      else s
    | none => s
  let ended : State :=
    match (closed.lane L).span with
    | some sp => closed.endSpan L sp 0
    | none => closed
  let t := ended.closePiece L 0
  let changed := (t.lane L).list.filter fun r => r.finish != r
  let u := changed.foldl (fun t r => t.recordTouched L r.start r.last)
    (t.setList L ((t.lane L).list.map Record.finish))
  u.modLane L fun l => { l.blockEnd (l.fill - 1) with finished := true }

end Sys2Proof.Machine
end

