-- ==== Sys2Proof/Machine/Operands.lean ====
section
/-! DEFINITION. Operand forms: multi-byte fields (Chapter 11), the enumerated codes of 11.8 and 11.9 in both
directions, the request codes and payloads of R184, sample words (R137 to R139), the PROFILE record (11.6) with
its clamps (R145), and the REPAIR RECORD on the wire (11.5). -/

namespace Sys2Proof.Machine
open Sys2Proof

/-! ### Fields -/

/-- `k` bytes, most significant first, of a value modulo 256^k. -/
def beBytes : Nat → Nat → List Byte
  | 0, _ => []
  | k + 1, n => BitVec.ofNat 8 (n / 256 ^ k) :: beBytes k n

/-- The value of bytes sent most significant first. -/
def fromBE (bs : List Byte) : Nat := bs.foldl (fun n b => 256 * n + b.toNat) 0

/-- The `n` bytes at offset `off`, most significant first. -/
def fieldAt (bs : List Byte) (off n : Nat) : Nat := fromBE ((bs.drop off).take n)

def byteAt (bs : List Byte) (off : Nat) : Byte := bs.getD off 0#8

/-- A flag byte: 1 when set, 0 when clear. -/
def flagByte (b : Bool) : Byte := if b then 1#8 else 0#8

/-- A one-byte count. -/
def natByte (n : Nat) : Byte := BitVec.ofNat 8 n

/-- An internal sample in a 4-byte field, sign-extended (Chapter 11). -/
def sampleField (x : Int) : List Byte := beBytes 4 ((x % 4294967296).toNat)

/-! ### Codes of 11.8 and 11.9 -/

def portOf (b : Byte) : Option Port := if b = 0#8 then some .A else if b = 1#8 then some .B else none

def portByte : Port → Byte
  | .A => 0#8
  | .B => 1#8

def rateOf (b : Byte) : Option Rate := if b = 0#8 then some .k48 else if b = 1#8 then some .k96 else none

def widthOf (b : Byte) : Option Width := if b = 16#8 then some .w16 else if b = 24#8 then some .w24 else none

def Width.byte : Width → Byte
  | .w16 => 16#8
  | .w24 => 24#8

def roundingOf (b : Byte) : Option Rounding :=
  if b = 0#8 then some .nearest else if b = 1#8 then some .truncate else none

/-- Log enable, enable and delivery enable: off 0, on 1. -/
def onOff (b : Byte) : Option Bool := if b = 0#8 then some false else if b = 1#8 then some true else none

/-- A perforation line, 0 to 3. -/
def lineOf (b : Byte) : Option LineId := if h : b.toNat < 4 then some ⟨b.toNat, h⟩ else none

/-- The perforation line of LANE OPEN: P0 to P3, or NONE (FFh). -/
def boundLineOf (b : Byte) : Option (Option LineId) :=
  if b = 0xFF#8 then some none else (lineOf b).map some

def orderOf (b : Byte) : Option ByteOrder := if b = 0#8 then some .little else if b = 1#8 then some .big else none

def ByteOrder.byte : ByteOrder → Byte
  | .little => 0#8
  | .big => 1#8

def senseOf (b : Byte) : Option Sense := if b = 0#8 then some .rising else if b = 1#8 then some .falling else none

/-- A mask code: UNMASKED 0, MASKED 1. -/
def maskOf (b : Byte) : Option Bool := onOff b

def modeOf (b : Byte) : Option HumMode := if b = 0#8 then some .fixed else if b = 1#8 then some .tracked else none

def HumMode.byte : HumMode → Byte
  | .fixed => 0#8
  | .tracked => 1#8

def LaneState.byte : LaneState → Byte
  | .closed => 0#8
  | .active => 1#8
  | .draining => 2#8

def BlockState.byte : BlockState → Byte
  | .free => 0#8
  | .filling => 1#8
  | .analysed => 2#8
  | .rendering => 3#8
  | .rendered => 4#8
  | .dirty => 5#8

def LineState.byte : LineState → Byte
  | .disabled => 0#8
  | .searching => 1#8
  | .tracking => 2#8
  | .coast => 3#8

def LinkState.byte : LinkState → Byte
  | .down => 0#8
  | .up => 1#8

def Kind.byte : Kind → Byte
  | .click => 1#8
  | .burst => 2#8
  | .gap => 3#8
  | .forced => 4#8
  | .splice => 5#8

def Origin.byte : Origin → Byte
  | .detector => 1#8
  | .link => 2#8
  | .portA => 3#8
  | .portB => 4#8

def RecState.byte : RecState → Byte
  | .opened => 1#8
  | .live => 2#8
  | .frozen => 3#8

def Disp.byte : Disp → Byte
  | .applied => 0#8
  | .vetoed => 1#8

def Grade.number : Grade → Nat
  | .A => 1
  | .B => 2
  | .C => 3
  | .D => 4

def Status.byte : Status → Byte
  | .done => 0x00#8
  | .clamped => 0x01#8
  | .busy => 0x02#8
  | .range => 0x03#8
  | .state => 0x04#8
  | .nolane => 0x05#8
  | .nospace => 0x06#8
  | .overlap => 0x07#8
  | .norec => 0x08#8
  | .tooLate => 0x09#8
  | .lost => 0x0A#8
  | .closed => 0x0B#8
  | .unknown => 0x0C#8
  | .malformed => 0x0D#8

/-! ### Requests (R184) -/

/-- The request code. -/
def requestCode : Request → Byte
  | .laneOpen _ => 0x01#8
  | .laneClose => 0x02#8
  | .laneDrain => 0x03#8
  | .laneStatus => 0x04#8
  | .edit _ => 0x10#8
  | .reserve _ => 0x11#8
  | .cursorSet _ => 0x12#8
  | .listRead _ => 0x13#8
  | .sync => 0x14#8
  | .transportSetup _ => 0x20#8
  | .profileWrite _ _ => 0x30#8
  | .profileRead _ _ => 0x31#8
  | .refresh _ => 0x32#8
  | .portSetup _ _ _ => 0x40#8
  | .unitReset => 0x41#8
  | .noticeMask _ => 0x50#8
  | .condition _ _ => 0x51#8
  | .identify => 0x52#8

/-- The payload length of a known request code (R184). -/
def requestLength (code : Byte) : Option Nat :=
  match code.toNat with
  | 0x01 => some 16
  | 0x02 => some 0
  | 0x03 => some 0
  | 0x04 => some 0
  | 0x10 => some 8
  | 0x11 => some 4
  | 0x12 => some 4
  | 0x13 => some 1
  | 0x14 => some 0
  | 0x20 => some 7
  | 0x30 => some 81
  | 0x31 => some 2
  | 0x32 => some 1
  | 0x40 => some 3
  | 0x41 => some 0
  | 0x50 => some 6
  | 0x51 => some 2
  | 0x52 => some 0
  | _ => none

/-- The PROFILE record carried at offset `o` of a payload (11.6). -/
def profileRawAt (b : List Byte) (o : Nat) : ProfileRaw where
  t := BitVec.ofNat 16 (fieldAt b o 2)
  g := byteAt b (o + 2)
  lmax := byteAt b (o + 3)
  emin := BitVec.ofNat 16 (fieldAt b (o + 4) 2)
  ls := BitVec.ofNat 16 (fieldAt b (o + 6) 2)
  mode := byteAt b (o + 8)
  f := BitVec.ofNat 16 (fieldAt b (o + 9) 2)
  d := byteAt b (o + 11)
  h := byteAt b (o + 12)
  mu := byteAt b (o + 13)
  levels := Vector.ofFn fun i => BitVec.ofNat 24 (fieldAt b (o + 14 + 3 * i.val) 3)
  alphas := Vector.ofFn fun i => BitVec.ofNat 16 (fieldAt b (o + 50 + 2 * i.val) 2)
  g1 := BitVec.ofNat 16 (fieldAt b (o + 74) 2)
  g2 := BitVec.ofNat 16 (fieldAt b (o + 76) 2)
  g3 := BitVec.ofNat 16 (fieldAt b (o + 78) 2)

/-- The whole request of a code and a payload of that code's length (R184). -/
def readRequest (code : Byte) (b : List Byte) : Option Request :=
  match code.toNat with
  | 0x01 => some <| .laneOpen
      { source := byteAt b 0
        sink := byteAt b 1
        rate := byteAt b 2
        ringSize := byteAt b 3
        hold := byteAt b 4
        reserve := BitVec.ofNat 16 (fieldAt b 5 2)
        slot := byteAt b 7
        line := byteAt b 8
        start := BitVec.ofNat 32 (fieldAt b 9 4)
        width := byteAt b 13
        rounding := byteAt b 14
        log := byteAt b 15 }
  | 0x02 => some .laneClose
  | 0x03 => some .laneDrain
  | 0x04 => some .laneStatus
  | 0x10 => some <| .edit
      { action := byteAt b 0
        conditional := byteAt b 1
        pos := BitVec.ofNat 32 (fieldAt b 2 4)
        length := BitVec.ofNat 16 (fieldAt b 6 2) }
  | 0x11 => some <| .reserve (BitVec.ofNat 32 (fieldAt b 0 4))
  | 0x12 => some <| .cursorSet (BitVec.ofNat 32 (fieldAt b 0 4))
  | 0x13 => some <| .listRead (byteAt b 0)
  | 0x14 => some .sync
  | 0x20 => some <| .transportSetup
      { line := byteAt b 0
        report := byteAt b 1
        enable := byteAt b 2
        sense := byteAt b 3
        n := byteAt b 4
        tc := byteAt b 5
        tl := byteAt b 6 }
  | 0x30 => some <| .profileWrite (byteAt b 0) (profileRawAt b 1)
  | 0x31 => some <| .profileRead (byteAt b 0) (byteAt b 1)
  | 0x32 => some <| .refresh (byteAt b 0)
  | 0x40 => some <| .portSetup (byteAt b 0) (byteAt b 1) (byteAt b 2)
  | 0x41 => some .unitReset
  | 0x50 => some <| .noticeMask (Vector.ofFn fun i => byteAt b i.val)
  | 0x51 => some <| .condition (byteAt b 0) (byteAt b 1)
  | 0x52 => some .identify
  | _ => none

/-- A PROFILE record as a station carries it (11.6). -/
def profileBytes (r : ProfileRaw) : List Byte :=
  beBytes 2 r.t.toNat ++ [r.g, r.lmax] ++ beBytes 2 r.emin.toNat ++ beBytes 2 r.ls.toNat ++ [r.mode] ++
  beBytes 2 r.f.toNat ++ [r.d, r.h, r.mu] ++ r.levels.toList.flatMap (fun x => beBytes 3 x.toNat) ++
  r.alphas.toList.flatMap (fun x => beBytes 2 x.toNat) ++ beBytes 2 r.g1.toNat ++ beBytes 2 r.g2.toNat ++
  beBytes 2 r.g3.toNat

/-- The payload a station forms for a request, by the table of R184. -/
def requestPayload : Request → List Byte
  | .laneOpen a =>
    [a.source, a.sink, a.rate, a.ringSize, a.hold] ++ beBytes 2 a.reserve.toNat ++ [a.slot, a.line] ++
    beBytes 4 a.start.toNat ++ [a.width, a.rounding, a.log]
  | .laneClose => []
  | .laneDrain => []
  | .laneStatus => []
  | .edit a => [a.action, a.conditional] ++ beBytes 4 a.pos.toNat ++ beBytes 2 a.length.toNat
  | .reserve pos => beBytes 4 pos.toNat
  | .cursorSet pos => beBytes 4 pos.toNat
  | .listRead n => [n]
  | .sync => []
  | .transportSetup a => [a.line, a.report, a.enable, a.sense, a.n, a.tc, a.tl]
  | .profileWrite slot r => slot :: profileBytes r
  | .profileRead form which => [form, which]
  | .refresh slot => [slot]
  | .portSetup width order delivery => [width, order, delivery]
  | .unitReset => []
  | .noticeMask m => m.toList
  | .condition form which => [form, which]
  | .identify => []

/-- The queue entry of a REQUEST whose payload length field agrees with its frame (R157, R184). -/
def readEntry (tag : Half) (lane code : Byte) (payload : List Byte) : Entry :=
  match requestLength code with
  | none => .unknown tag lane
  | some n =>
    if payload.length = n then
      match readRequest code payload with
      | some r => .whole tag lane r
      | none => .unknown tag lane
    else .malformed tag lane

/-! ### Sample words (R137 to R139) -/

/-- Bytes of a word. -/
def Width.size : Width → Nat
  | .w16 => 2
  | .w24 => 3

/-- The signed integer of `size` bytes' value `n`. -/
def signedOf (size n : Nat) : Int := if n < 2 ^ (8 * size - 1) then (n : Int) else (n : Int) - 2 ^ (8 * size)

/-- One sample word decoded to an internal sample (R137). -/
def decodeWord (w : Width) (o : ByteOrder) (bs : List Byte) : Int :=
  let x := signedOf w.size (fromBE (match o with
    | .big => bs
    | .little => bs.reverse))
  match w with
  | .w24 => x
  | .w16 => x * 256

/-- `n` sample words (R136, R137). -/
def decodeWords (w : Width) (o : ByteOrder) : Nat → List Byte → List Int
  | 0, _ => []
  | n + 1, bs => decodeWord w o (bs.take w.size) :: decodeWords w o n (bs.drop w.size)

/-- The word a restored sample is delivered as (R138). -/
def deliveredWord (w : Width) (r : Rounding) (y : Int) : Int :=
  match w, r with
  | .w24, _ => y
  | .w16, .nearest => clampInt (-32768) 32767 (roundEven256 y)
  | .w16, .truncate => clampInt (-32768) 32767 (y.tdiv 256)

/-- The bytes of a delivered word (R139). -/
def wordBytes (w : Width) (o : ByteOrder) (x : Int) : List Byte :=
  let b := beBytes w.size ((x % 2 ^ (8 * w.size)).toNat)
  match o with
  | .big => b
  | .little => b.reverse

/-! ### Records and profiles on the wire -/

/-- A record's 20 bytes (11.5). -/
def Record.wire (r : Record) : List Byte :=
  beBytes 4 r.start ++ beBytes 2 r.length ++
  [r.kind.byte, r.origin.byte, r.state.byte, r.disp.byte, natByte r.ratio,
    natByte ((if r.before.isNone then 1 else 0) + (if r.after.isNone then 2 else 0))] ++
  sampleField (r.before.getD 0) ++ sampleField (r.after.getD 0)

/-- A PROFILE record's 80 bytes (11.6). -/
def Profile.wire (p : Profile) : List Byte :=
  beBytes 2 p.t ++ [natByte p.g, natByte p.lmax] ++ beBytes 2 p.emin ++ beBytes 2 p.ls ++ [p.mode.byte] ++
  beBytes 2 p.f ++ [natByte p.d, natByte p.h, natByte p.mu] ++ p.levels.toList.flatMap (beBytes 3) ++
  p.alphas.toList.flatMap (beBytes 2) ++ beBytes 2 p.g1 ++ beBytes 2 p.g2 ++ beBytes 2 p.g3

def clampNat (lo hi n : Nat) : Nat := max lo (min hi n)

/-- The record a slot would hold: every numeric field brought to the nearer end of its range (R145). -/
def clampedProfile (r : ProfileRaw) (mode : HumMode) : Profile where
  t := clampNat 8 255 r.t.toNat
  g := clampNat 1 8 r.g.toNat
  lmax := clampNat 8 96 r.lmax.toNat
  emin := r.emin.toNat
  ls := min 511 r.ls.toNat
  mode := mode
  f := clampNat 1000 20000 r.f.toNat
  d := clampNat 1 8 r.d.toNat
  h := min 8 r.h.toNat
  mu := clampNat 4 15 r.mu.toNat
  levels := mapVec (fun x => min 8388607 x.toNat) r.levels
  alphas := mapVec (fun x => clampNat 1 32768 x.toNat) r.alphas
  g1 := r.g1.toNat
  g2 := r.g2.toNat
  g3 := r.g3.toNat

/-- The record as carried, no field clamped: a write is answered CLAMPED when the held record differs (R145). -/
def carriedProfile (r : ProfileRaw) (mode : HumMode) : Profile where
  t := r.t.toNat
  g := r.g.toNat
  lmax := r.lmax.toNat
  emin := r.emin.toNat
  ls := r.ls.toNat
  mode := mode
  f := r.f.toNat
  d := r.d.toNat
  h := r.h.toNat
  mu := r.mu.toNat
  levels := mapVec BitVec.toNat r.levels
  alphas := mapVec BitVec.toNat r.alphas
  g1 := r.g1.toNat
  g2 := r.g2.toNat
  g3 := r.g3.toNat

/-- A list of numbers does not decrease (R144). -/
def notDecreasing : List Nat → Bool
  | [] => true
  | x :: t => (match t with
    | [] => true
    | y :: _ => decide (x ≤ y)) && notDecreasing t

end Sys2Proof.Machine
end

