-- ==== Sys2Proof/Machine/RenderEngine.lean ====
section
/-! DEFINITION. The Render Engine (Chapter 5), its three stages (R95: repair R96 and R97, hum R126 to R130, hiss
R132 to R134), the grant (R91, R92), the start and completion of a render (R93, R99 to R101), and the answering of
parked SYNCs (R87, R102). -/

namespace Sys2Proof.Machine
open Sys2Proof

/-! ### Stages -/

/-- The repair stage at a position with raw value `raw` (R96, R97). -/
def repairStage (rs : List SnapRecord) (pos : Nat) (raw : Int) : Int :=
  match rs.find? fun r => decide (r.start ≤ pos) && decide (pos < r.start + r.length) with
  | some r => interpolate r.before r.after r.length (pos - r.start)
  | none => raw

/-- Harmonic k, k = i + 1, is active (R126). -/
def harmonicActive (p : Profile) (increment : Nat) (i : Fin 8) : Bool :=
  decide (i.val + 1 ≤ p.h) && decide ((i.val + 1) * increment < 2147483648)

/-- The active harmonics of a block (R126). -/
def activeHarmonics (p : Profile) (increment : Nat) : List (Fin 8) :=
  (List.finRange 8).filter (harmonicActive p increment)

/-- The estimate of the hum (R127). -/
def humEstimate (act : List (Fin 8)) (w : Filter) : Int :=
  asr ((act.map fun i => w.a[i.val] * waveCos (i.val + 1) w.phase + w.b[i.val] * waveSin (i.val + 1) w.phase).sum) 23

/-- A coefficient after an error `e` on wave `x` (R128). -/
def adaptCoefficient (mu : Nat) (e x c : Int) : Int := sat32 (c + asr (e * x) (7 + mu))

/-- The hum stage of an active block at one position, input `r`: the output and the state after it (R127, R128). -/
def humStage (p : Profile) (increment : Nat) (act : List (Fin 8)) (w : Filter) (r : Int) : Int × Filter :=
  let e := sat24 (r - humEstimate act w)
  let a := act.foldl (fun v i => v.set i.val (adaptCoefficient p.mu e (waveCos (i.val + 1) w.phase) v[i.val])) w.a
  let b := act.foldl (fun v i => v.set i.val (adaptCoefficient p.mu e (waveSin (i.val + 1) w.phase) v[i.val])) w.b
  (e, { w with a := a, b := b, phase := (w.phase + increment) % 4294967296 })

/-- The hiss envelope after input `u` (R132). -/
def hissEnvelope (v u : Int) : Int := v + asr (16 * (u.natAbs : Int) - v) 8

/-- The step of the ladder for envelope `v` (R133). -/
def hissStep (p : Profile) (v : Int) : Fin 12 :=
  (List.finRange 12).foldl (fun best j => if 16 * ((p.levels[j.val] : Nat) : Int) ≤ v then j else best) 0

/-- The hiss stage at one position, input `u`; the new y is the restored sample (R132 to R134). -/
def hissStage (p : Profile) (w : Filter) (u : Int) : Filter :=
  let v := hissEnvelope w.v u
  let alpha : Int := ((p.alphas[(hissStep p v).val] : Nat) : Int)
  { w with v := v, y := w.y + asr ((u - w.y) * alpha) 15 }

/-- The three stages over a block's positions from `pos` on (R95): the restored samples and the state left. -/
def renderRun (r : Render) (bypass : Bool) (act : List (Fin 8)) : Nat → List Int → Filter → List Int × Filter
  | _, [], w => ([], w)
  | pos, raw :: t, w =>
    let x := repairStage r.records pos raw
    let (u, w1) := if bypass then (x, w) else humStage r.profile r.latch.increment act w x
    let w2 := hissStage r.profile w1 u
    let (ys, w3) := renderRun r bypass act (pos + 1) t w2
    (w2.y :: ys, w3)

/-- The whole render (R95); the block of a bypassed hum stage leaves phase and coefficients 0 (R130). -/
def Render.result (r : Render) : List Int × Filter :=
  let bypass := humBypassed r.profile.mode r.latch.line
  let (ys, w) := renderRun r bypass (activeHarmonics r.profile r.latch.increment) r.first r.raw r.work
  (ys, if bypass then { Filter.zero with y := w.y, v := w.v } else w)

/-! ### The grant and the start (R91 to R93) -/

/-- The snapshot's records: every APPLIED record that touches the block (R93). A startable block's hold both
anchors (R90). -/
def Lane.snapRecords (l : Lane) (j : Nat) : List SnapRecord :=
  (l.list.filter fun r => r.disp == .applied && r.meets (l.firstOf j) (l.lastOf j)).map fun r =>
    ⟨r.start, r.length, r.before.getD 0, r.after.getD 0⟩

/-- The record of the render in flight for block `j` of lane `L` (R89, R93). -/
def State.renderOf (s : State) (L : LaneId) (j : Nat) : Render :=
  let l := s.lane L
  let b := l.block j
  let c := s.store.checkpoint (l.slotOf j)
  { lane := L
    block := j
    first := l.firstOf j
    length := l.lengthOf j
    kind := if b.state = .dirty then .rerender else .first
    mark := if b.state = .dirty then b.mark else none
    abandoned := false
    raw := (List.range (l.lengthOf j)).map fun i => s.rawAt L (l.firstOf j + i)
    records := l.snapRecords j
    latch := c.latch
    profile := l.profileOf c.latch.generation
    work := c.filter }

/-- The render of block `j` of lane `L` starts (R93). -/
def State.startRender (s : State) (L : LaneId) (j : Nat) : State :=
  let l := s.lane L
  let b := l.block j
  (s.setLane L (l.setBlock j { b with state := .rendering, touch := none })).setEngine ⟨L, some (s.renderOf L j)⟩

/-- The first lane after the grant pointer that has a startable block, and the block (R91, R92). -/
def State.nextGrant (s : State) : Option (LaneId × Nat) :=
  (lanesAfter s.engine.pointer).findSome? fun L => (s.lane L).nextBlock.map fun j => (L, j)

/-- While the engine is IDLE it grants, if a lane has a startable block (R91). -/
def State.grant (s : State) : State :=
  match s.engine.inFlight with
  | some _ => s
  | none =>
    match s.nextGrant with
    | some (L, j) => s.startRender L j
    | none => s

/-! ### Parked SYNCs (R87) -/

/-- A RESPONSE of a parked request joins the port's answer list (R159). -/
def PortRec.answerParked (q : PortRec) (k : Parked) (st : Status) (payload : List Byte) : PortRec :=
  { q with answers := q.answers ++ [⟨k.tag, laneByte k.lane, st, payload, true⟩] }

/-- Every parked request satisfying `f` is answered, in the order in which they were parked, and is no longer
waiting. -/
def PortRec.answerWhere (q : PortRec) (f : Parked → Bool) (st : Status) (payload : Parked → List Byte) : PortRec :=
  (q.parked.filter f).foldl (fun q k => q.answerParked k st (payload k))
    { q with parked := q.parked.filter fun k => !f k }

/-- The payload of a parked request answered DONE: SYNC carries its s, LANE DRAIN nothing (R87, R185). -/
def Parked.donePayload (k : Parked) : List Byte :=
  match k.kind with
  | .sync n => 0x14#8 :: beBytes 4 n
  | .drain => [0x03#8]

/-- The same answered CLOSED: its fields read 0 (R88, R185). -/
def Parked.closedPayload (k : Parked) : List Byte :=
  match k.kind with
  | .sync _ => 0x14#8 :: beBytes 4 0
  | .drain => [0x03#8]

/-- A parked SYNC on lane `L` whose condition holds in lane record `l` (R87). -/
def Parked.syncReady (k : Parked) (L : LaneId) (l : Lane) : Bool :=
  match k.kind with
  | .sync n => k.lane == L && !l.holdsSync n
  | .drain => false

/-- Every parked SYNC on the lane that its condition now satisfies is answered DONE, on its own port (R87, R102). -/
def State.answerSyncs (s : State) (L : LaneId) : State :=
  let l := s.lane L
  (s.modPort .A (·.answerWhere (·.syncReady L l) .done Parked.donePayload)).modPort .B
    (·.answerWhere (·.syncReady L l) .done Parked.donePayload)

/-! ### Completion (R99 to R102, R107) -/

/-- The restored samples of a block written into its slot (R99). -/
def writeRestored (m : SampleStore) (k : Nat) : List Int → SampleStore
  | [] => m
  | y :: t => writeRestored (m.setRestored k y) (k + 1) t

/-- The state of the rendered block after an unabandoned completion (R99, R100). -/
def Block.completed (b : Block) : Block :=
  match b.touch with
  | none => { b with state := .rendered, rendered := true, mark := none, touch := none }
  | some m => { b with state := .dirty, rendered := true, mark := some m, touch := none }

/-- The cascade mark on the next block (R101). -/
def Block.cascaded (b : Block) (m : Nat) : Block :=
  match b.state with
  | .rendered => { b with state := .dirty, mark := some m }
  | .dirty => { b with mark := lowerMark m b.mark }
  | .free | .filling | .analysed | .rendering => b

/-- Block `r.block` is the lane's fixed final block: no block follows it (R99, R101). -/
def Lane.isFinal (l : Lane) (j : Nat) : Bool := l.final == some (l.firstOf j)

/-- What the lane record takes from a completion: the block's state and flag, the render point, the cascade
(R99 to R101). -/
def Lane.completed (l : Lane) (r : Render) : Lane :=
  let l1 := l.setBlock r.block (l.block r.block).completed
  let l2 := if r.kind = .first then { l1 with render := l1.render + r.length } else l1
  let next := r.block + 1
  if r.kind = .rerender ∧ l2.isFinal r.block = false ∧ l2.inRing next ∧ (l2.block next).rendered then
    l2.setBlock next ((l2.block next).cascaded (r.mark.getD 0))
  else l2

/-- What the Sample Store takes: restored samples, and the next checkpoint's filter fields (R99). -/
def State.completedStore (s : State) (r : Render) : SampleStore :=
  let l := s.lane r.lane
  let (ys, w) := r.result
  let m := writeRestored s.store (l.cell r.first) ys
  if l.isFinal r.block then m
  else
    let n := l.slotOf (r.block + 1)
    m.setCheckpoint n { m.checkpoint n with filter := w }

/-- The completion of render `r`, less the next grant. An abandoned render writes nothing (R107). -/
def State.completeRender (s : State) (r : Render) : State :=
  let idle := s.setEngine { s.engine with inFlight := none }
  if r.abandoned then idle
  else
    ((idle.setStore (s.completedStore r)).modLane r.lane (Lane.completed · r)).answerSyncs r.lane

end Sys2Proof.Machine
end

