-- ==== Sys2Proof/Machine/Settle.lean ====
section
/-! DEFINITION. What a lane does by itself as soon as its condition holds (assumption log 5): the landing buffer's
placement (R17), the fixing of the final block (R6), the finishing of a drained lane (R46), GO (R19), the discard
of the RETIRING copy (R150) and the completion of a drain (R7). Each has its condition, its effect, and the row of
the table that names it; `State.settleLane` takes whichever are due, inside the event that made them due. The rows
of the analyser, of the engine and of the parked SYNCs stand here too. -/

namespace Sys2Proof.Machine
open Sys2Proof

/-! ### A lane leaves (R7, R8) -/

/-- A lane as an open one stands once CLOSED: its counters, grade and window keep their values (R8, R179 to R181). -/
def Lane.closed (l : Lane) : Lane :=
  { Lane.reset with counters := l.counters, grade := l.grade, window := l.window, everOpened := true }

/-- The flow entries of a lane are withdrawn (R163). -/
def PortRec.withdrawFlow (q : PortRec) (L : LaneId) : PortRec := { q with flow := q.flow.filter (·.lane != L) }

/-- The lane gives back its slots, records, reserve and working copies, and is CLOSED (R7, R8, R47, R64). -/
def State.closeLane (s : State) (L : LaneId) : State :=
  let t := ((s.modPort .A (·.withdrawFlow L)).modPort .B (·.withdrawFlow L)).dropReservations L
  (t.modLane L Lane.closed).assess

/-! ### Slots, landing buffer and GO -/

/-- The freed slot becomes FILLING for the block at the fill point, if the lane has no other (R17, R23). -/
def State.openSlot (s : State) (L : LaneId) : State :=
  if (s.lane L).fillSlotFree then s.setLane L (s.lane L).openFillSlot else s

/-- Landing entries can be placed. -/
def Lane.landingDue (l : Lane) : Bool :=
  l.isOpen && !l.landing.isEmpty && (l.takesFrame || l.fillSlotFree)

/-- The landing buffer gives up entries (R17). -/
def State.placeLanding (s : State) (L : LaneId) : State :=
  let t := s.openSlot L
  placeEntries L (t.lane L).landing t

/-- GO is to be sent (R19). -/
def Lane.goDue (l : Lane) : Bool :=
  l.held && l.state == .active && l.landing.isEmpty && (l.canPlace || l.fillSlotFree)

/-- GO: the lane is no longer held (R19, R163). -/
def State.sendGo (s : State) (L : LaneId) : State :=
  (s.modLane L fun l => { l with held := false, afterHold := 0 }).enterFlow L false

/-! ### The drain -/

/-- The final block is to be fixed (R6). A lane that has placed nothing has no block to fix. -/
def Lane.finalDue (l : Lane) : Bool :=
  l.state == .draining && l.landing.isEmpty && l.final.isNone && decide (l.start < l.fill)

/-- The final block is fixed: the block at the fill point, or, where that block holds no placed position, the one
before it, and its own slot, if it has one, is FREE again (R6). -/
def Lane.fixFinal (l : Lane) : Lane :=
  let j := l.ord l.fill
  if (l.fill - l.start) % Config.blockLen = 0 then
    let freed := if l.inRing j && (l.block j).state == .filling then l.setBlock j {} else l
    { freed with final := some (l.firstOf (j - 1)) }
  else { l with final := some (l.firstOf j) }

/-- The drain is complete: the final block released and every LOG frame taken (R7). A lane drained before it placed
anything has nothing to release (assumption log 7). -/
def Lane.drainDone (l : Lane) : Bool :=
  l.state == .draining && l.landing.isEmpty && l.logQueue.isEmpty && decide (l.release = l.fill) &&
  (l.final.isSome || decide (l.fill = l.start))

/-- A parked LANE DRAIN of the lane. -/
def Parked.isDrainOf (k : Parked) (L : LaneId) : Bool := k.lane == L && k.kind == .drain

/-- Drain completion (R7). -/
def State.completeDrain (s : State) (L : LaneId) : State :=
  let final := (s.lane L).release
  let t := (s.modPort .A (·.answerWhere (·.isDrainOf L) .done Parked.donePayload)).modPort .B
    (·.answerWhere (·.isDrainOf L) .done Parked.donePayload)
  (t.closeLane L).raise .laneDrained (some L) final 0

/-! ### The RETIRING copy -/

/-- No unreleased block carries the RETIRING copy's generation (R150). -/
def State.discardDue (s : State) (L : LaneId) : Bool :=
  match (s.lane L).retiring with
  | some w => !s.carried L w.generation
  | none => false

def State.discardRetiring (s : State) (L : LaneId) : State := s.modLane L fun l => { l with retiring := none }

/-! ### Taken as they fall due -/

/-- `f` is applied if `due`. -/
def State.when (s : State) (due : Bool) (f : State → State) : State := if due then f s else s

/-- Whatever of the above is due on the lane takes place, and then the engine, if IDLE, may grant (R91). -/
def State.settleLane (s : State) (L : LaneId) : State :=
  let s := s.openSlot L
  let s := s.when (s.lane L).landingDue (·.placeLanding L)
  let s := s.when (s.lane L).finalDue (·.modLane L Lane.fixFinal)
  let s := s.when (s.lane L).finishDue (·.finishAnalysis L)
  let s := s.when (s.lane L).goDue (·.sendGo L)
  let s := s.when (s.discardDue L) (·.discardRetiring L)
  let s := s.when (s.lane L).drainDone (·.completeDrain L)
  s.grant

/-! ### The rows -/

/-- An event takes place if its condition holds, and otherwise nothing happens (assumption log 3). -/
def State.takePlace (s : State) (due : Bool) (f : State → State) : Host.Outcome State Fault Refusal :=
  .next (if due then f s.event else s)

/-- GO (R19). -/
def execGo (L : LaneId) (s : State) : Host.Outcome State Fault Refusal :=
  s.takePlace (s.lane L).goDue (·.sendGo L)

/-- LANDING_PLACEMENT (R17). -/
def execLandingPlacement (L : LaneId) (s : State) : Host.Outcome State Fault Refusal :=
  s.takePlace (s.lane L).landingDue fun t => (t.placeLanding L).settleLane L

/-- FINAL_BLOCK (R6). -/
def execFinalBlock (L : LaneId) (s : State) : Host.Outcome State Fault Refusal :=
  s.takePlace (s.lane L).finalDue fun t => (t.modLane L Lane.fixFinal).settleLane L

/-- DRAIN_ANALYSIS_FINISH (R46). -/
def execDrainAnalysisFinish (L : LaneId) (s : State) : Host.Outcome State Fault Refusal :=
  s.takePlace (s.lane L).finishDue fun t => (t.finishAnalysis L).grant

/-- DRAIN_COMPLETION (R7). -/
def execDrainCompletion (L : LaneId) (s : State) : Host.Outcome State Fault Refusal :=
  s.takePlace (s.lane L).drainDone (·.completeDrain L)

/-- RETIRING_DISCARD (R150). -/
def execRetiringDiscard (L : LaneId) (s : State) : Host.Outcome State Fault Refusal :=
  s.takePlace (s.discardDue L) (·.discardRetiring L)

/-- ANALYSE_POSITION (R20, R26), with the finishing of a drained lane at its last placed position (R46). -/
def execAnalysePosition (L : LaneId) (s : State) : Host.Outcome State Fault Refusal :=
  s.takePlace (s.lane L).canAnalyse fun t =>
    let u := t.analyseNext L
    (u.when (u.lane L).finishDue (·.finishAnalysis L)).grant

/-- The engine is IDLE and some lane has a startable block (R91). -/
def State.grantDue (s : State) : Bool := s.engine.inFlight.isNone && s.nextGrant.isSome

/-- RENDER_START (R91 to R93). -/
def execRenderStart (s : State) : Host.Outcome State Fault Refusal :=
  s.takePlace s.grantDue State.grant

/-- RENDER_COMPLETION (R99 to R102, R107), with the next grant (R91). -/
def execRenderCompletion (s : State) : Host.Outcome State Fault Refusal :=
  match s.engine.inFlight with
  | some r => .next (s.event.completeRender r).grant
  | none => .next s

/-- A parked SYNC on the lane can be answered (R87). -/
def State.syncDue (s : State) (L : LaneId) : Bool :=
  s.portA.parked.any (·.syncReady L (s.lane L)) || s.portB.parked.any (·.syncReady L (s.lane L))

/-- SYNC_ANSWER (R87). -/
def execSyncAnswer (L : LaneId) (s : State) : Host.Outcome State Fault Refusal :=
  s.takePlace (s.syncDue L) (·.answerSyncs L)

end Sys2Proof.Machine
end

