-- ==== Sys2Proof/Machine/Frames.lean ====
section
/-! DEFINITION. Frames on the wire (Chapter 9, 9.1; Chapter 11, 11.1): the CRC (R155), the frames the part sends
(R154), the frames a station sends, and the arrival of a frame on a link (R155 to R157). -/

namespace Sys2Proof.Machine
open Sys2Proof

/-! ### The CRC (R155) -/

/-- One bit of the CRC, least significant first: the generator 04C11DB7h stands reflected. -/
def crcBit (c : Nat) : Nat := if c % 2 = 1 then Nat.xor (c / 2) 0xEDB88320 else c / 2

/-- `k` bits. -/
def crcBits : Nat → Nat → Nat
  | 0, c => c
  | k + 1, c => crcBits k (crcBit c)

/-- The register after bytes, from `c`. -/
def crcRun (c : Nat) : List Byte → Nat
  | [] => c
  | b :: t => crcRun (crcBits 8 (Nat.xor c b.toNat)) t

/-- The CRC of a header and payload. -/
def crc32 (bs : List Byte) : Nat := Nat.xor (crcRun 0xFFFFFFFF bs) 0xFFFFFFFF

/-! ### Frames sent (R154, R186) -/

/-- The kind code (11.1). -/
def OutKind.byte : OutKind → Byte
  | .response => 0x81#8
  | .restored => 0x82#8
  | .log => 0x83#8
  | .notice => 0x84#8
  | .hold => 0x85#8
  | .go => 0x86#8

/-- Header and payload. -/
def OutFrame.body (f : OutFrame) : List Byte :=
  [f.kind.byte, f.lane, f.flags, f.code] ++ beBytes 2 f.tag.toNat ++ beBytes 2 f.payload.length ++ f.payload

/-- The whole frame as its link carries it, CRC last. -/
def OutFrame.wire (f : OutFrame) : List Byte := f.body ++ beBytes 4 (crc32 f.body)

/-- The arbiter has taken a frame: it is sent whole (R161, R164). -/
def PortRec.send (q : PortRec) (f : OutFrame) : PortRec := { q with sent := q.sent ++ [f] }

/-! ### Counters of a port (R172) -/

def PortRec.countCrc (q : PortRec) : PortRec := { q with crcError := satInc q.crcError }
def PortRec.countMalformed (q : PortRec) : PortRec := { q with malformed := satInc q.malformed }
def PortRec.countStray (q : PortRec) : PortRec := { q with stray := satInc q.stray }
def PortRec.countDropped (q : PortRec) : PortRec := { q with dropped := satInc q.dropped }

/-! ### Frames received -/

/-- Bytes between header and CRC. -/
def framePayload (bytes : List Byte) : List Byte := (bytes.drop 8).take (bytes.length - 12)

/-- Check 2 of R155. -/
def frameCrcOk (bytes : List Byte) : Bool :=
  crc32 (bytes.take (bytes.length - 4)) == fieldAt bytes (bytes.length - 4) 4

/-- Check 4 of R155. -/
def frameLengthOk (bytes : List Byte) : Bool := fieldAt bytes 6 2 == bytes.length - 12

/-- A frame as a station forms it: header, payload and CRC (R154, R155). -/
def inboundFrame (kind lane flags code : Byte) (tag : Half) (payload : List Byte) : List Byte :=
  let body := [kind, lane, flags, code] ++ beBytes 2 tag.toNat ++ beBytes 2 payload.length ++ payload
  body ++ beBytes 4 (crc32 body)

/-- The REQUEST frame of a request (R154, R184); the flags, which the part ignores, are the station's. -/
def requestFrameOf (lane flags : Byte) (tag : Half) (r : Request) : List Byte :=
  inboundFrame kindRequest lane flags (requestCode r) tag (requestPayload r)

/-- The queue entry a REQUEST frame makes (R157): check 4 of R155 failed, or by its code and length. -/
def entryOf (bytes : List Byte) : Entry :=
  let tag : Half := BitVec.ofNat 16 (fieldAt bytes 4 2)
  if frameLengthOk bytes then readEntry tag (byteAt bytes 1) (byteAt bytes 3) (framePayload bytes)
  else .malformed tag (byteAt bytes 1)

/-- An entry joins the queue, and is counted MALFORMED if it is so (R157). -/
def PortRec.enqueue (q : PortRec) (e : Entry) : PortRec :=
  let counted := match e with
    | .malformed _ _ => q.countMalformed
    | .whole _ _ _ => q
    | .unknown _ _ => q
  { counted with queue := q.queue ++ [e] }

/-- A REQUEST frame that passed checks 1 to 3 (R157). -/
def State.requestArrives (s : State) (p : Port) (bytes : List Byte) : State :=
  let q := s.port p
  if q.queue.length < Config.queueLen then s.setPort p (q.enqueue (entryOf bytes))
  else (s.setPort p q.countDropped).raiseTo p .requestDropped none (fieldAt bytes 4 2) 0

/-- Samples a SAMPLES payload announces: a count byte of 0 stands for 256 (R156). -/
def sampleCount (payload : List Byte) : Nat :=
  if byteAt payload 4 = 0#8 then 256 else (byteAt payload 4).toNat

/-- The length check of R156. -/
def samplesLengthOk (w : Width) (payload : List Byte) : Bool :=
  decide (5 ≤ payload.length) && payload.length == 5 + sampleCount payload * w.size

/-- The decoded frame: its samples, or missing positions if BAD is set (R14, R136, R137). -/
def samplesEntry (q : PortRec) (flags : Byte) (payload : List Byte) : Landed :=
  let xs := decodeWords q.width q.order (sampleCount payload) (payload.drop 5)
  { start := fieldAt payload 0 4
    samples := if flags.getLsbD 0 then xs.map fun _ => none else xs.map some
    resumed := false }

/-- A SAMPLES frame that passed R155 (R156, R13). -/
def State.samplesArrive (s : State) (p : Port) (bytes : List Byte) : State :=
  let q := s.port p
  let payload := framePayload bytes
  if samplesLengthOk q.width payload then
    match laneOf (byteAt bytes 1) with
    | none => s.setPort p q.countStray
    | some L => (s.samplesFor p L (samplesEntry q (byteAt bytes 2) payload)).grant
  else s.setPort p q.countMalformed

/-- A frame arrives whole on a link and is checked (R155). -/
def State.frameArrives (s : State) (p : Port) (bytes : List Byte) : State :=
  let q := s.port p
  if bytes.length < 12 then s.setPort p q.countMalformed
  else if frameCrcOk bytes = false then s.setPort p q.countCrc
  else if byteAt bytes 0 = kindRequest then s.requestArrives p bytes
  else if byteAt bytes 0 = kindSamples then
    if frameLengthOk bytes then s.samplesArrive p bytes else s.setPort p q.countMalformed
  else s.setPort p q.countMalformed

/-- REQUEST_FRAME (R155, R157). A frame does not arrive on a link that is DOWN (R168). -/
def execRequestFrame (p : Port) (bytes : List Byte) (s : State) : Host.Outcome State Fault Refusal :=
  s.takePlace ((s.port p).link == .up) (·.frameArrives p bytes)

/-- SAMPLES_FRAME (R13, R155, R156). -/
def execSamplesFrame (p : Port) (bytes : List Byte) (s : State) : Host.Outcome State Fault Refusal :=
  s.takePlace ((s.port p).link == .up) (·.frameArrives p bytes)

end Sys2Proof.Machine
end

