-- ==== Sys2Proof/Machine/Arbiter.lean ====
section
/-! DEFINITION. The outbound arbiter of a port (Chapter 9, 9.3): its choice (R161, R162), and the taking of each
kind of frame: flow (R163), RESPONSE (R158, R159), NOTICE (R176), RESTORED, which is the release of a block (R23,
R59 to R61, R181, R182), and LOG (R62). -/

namespace Sys2Proof.Machine
open Sys2Proof

/-! ### The choice -/

/-- What the arbiter takes next. -/
inductive Choice where
  | flow (e : FlowEntry)
  | response (r : Response)
  | notice (i : Fin 42) (e : NoticeEntry)
  | log (L : LaneId)
  | restored (L : LaneId)
  deriving DecidableEq, Repr

/-- What lane `L` presents to port `p`, if anything (R162). -/
def State.presented (s : State) (p : Port) (L : LaneId) : Option Choice :=
  let l := s.lane L
  let q := s.port p
  if l.sink = p then
    if l.presentsLog q then some (.log L) else if l.presentsRestored q then some (.restored L) else none
  else none

/-- The choice of the arbiter of port `p`: the first class that holds a candidate (R161). -/
def State.chosen (s : State) (p : Port) : Option Choice :=
  let q := s.port p
  if q.link = .up then
    match q.flow.head?, q.answers.head?, q.nextNotice with
    | some e, _, _ => some (.flow e)
    | none, some r, _ => some (.response r)
    | none, none, some (i, e) => some (.notice i e)
    | none, none, none => (lanesAfter q.pointer).findSome? (s.presented p)
  else none

/-! ### Flow frames, responses and notices -/

/-- The frame of a flow entry (R163, R186). -/
def flowFrame (e : FlowEntry) : OutFrame :=
  ⟨if e.hold then .hold else .go, laneByte e.lane, 0, 0, 0, beBytes 5 e.fill⟩

def PortRec.takeFlow (q : PortRec) (e : FlowEntry) : PortRec := { q with flow := q.flow.tail }.send (flowFrame e)

/-- FLOW_FRAME_TAKEN (R163). -/
def execFlowFrameTaken (p : Port) (s : State) : Host.Outcome State Fault Refusal :=
  match s.chosen p with
  | some (.flow e) => .next (s.event.modPort p (·.takeFlow e))
  | _ => .next s

/-- The frame of a RESPONSE (R154, R158). -/
def responseFrame (r : Response) : OutFrame := ⟨.response, r.lane, 0, r.status.byte, r.tag, r.payload⟩

/-- The RESPONSE leaves the answer list, and with it the request in progress ends, unless it answers a parked
request, whose place is then free (R158, R159). -/
def PortRec.takeResponse (q : PortRec) (r : Response) : PortRec :=
  { q with
    answers := q.answers.tail
    inProgress := if r.ofParked then q.inProgress else none }.send (responseFrame r)

/-- RESPONSE_TAKEN (R158). -/
def execResponseTaken (p : Port) (s : State) : Host.Outcome State Fault Refusal :=
  match s.chosen p with
  | some (.response r) => .next (s.event.modPort p (·.takeResponse r))
  | _ => .next s

/-- The frame of a notice entry (R176, R186). -/
def noticeFrame (i : Fin 42) (e : NoticeEntry) : OutFrame :=
  { kind := .notice
    lane := if i.val % 7 = 6 then 0xFF#8 else natByte (i.val % 7)
    flags := 0
    code := e.code.byte
    tag := 0
    payload := [natByte (i.val / 7 + 1), natByte e.count] ++ beBytes 5 e.pos ++ [natByte e.detail] }

def PortRec.takeNotice (q : PortRec) (i : Fin 42) (e : NoticeEntry) : PortRec :=
  { q with entries := q.entries.set i.val none }.send (noticeFrame i e)

/-- NOTICE_TAKEN (R176). -/
def execNoticeTaken (p : Port) (s : State) : Host.Outcome State Fault Refusal :=
  match s.chosen p with
  | some (.notice i e) => .next (s.event.modPort p (·.takeNotice i e))
  | _ => .next s

/-! ### LOG frames -/

/-- The records a LOG frame carries. -/
def LogFrame.records (f : LogFrame) (l : List Record) : List Record := f.starts.filterMap fun st => findRecord st l

/-- The LOG frame as sent (R61, R186). -/
def logFrameOut (L : LaneId) (f : LogFrame) (l : List Record) : OutFrame :=
  ⟨.log, laneByte L, if f.more then 2 else 0, 0, 0,
    beBytes 4 f.first ++ [natByte f.starts.length] ++ (f.records l).flatMap Record.wire⟩

/-- The lane record after its oldest LOG frame is taken: the frame's records are freed (R62). -/
def Lane.logTaken (l : Lane) : Lane :=
  match l.logQueue with
  | [] => l
  | f :: t => { l with logQueue := t, list := l.list.filter fun r => !f.starts.contains r.start }

/-- The arbiter of port `p` takes the oldest LOG frame of lane `L` (R62, R162). -/
def State.takeLog (s : State) (p : Port) (L : LaneId) : State :=
  let l := s.lane L
  match l.logQueue with
  | [] => s
  | f :: _ =>
    let t := s.modPort p fun q => { q with pointer := L }.send (logFrameOut L f l.list)
    ((t.modLane L Lane.logTaken).assess).settleLane L

/-- LOG_FRAME_TAKEN (R62). -/
def execLogFrameTaken (p : Port) (s : State) : Host.Outcome State Fault Refusal :=
  match s.chosen p with
  | some (.log L) => .next (s.event.takeLog p L)
  | _ => .next s

/-! ### Release -/

/-- The delivered words of a block (R138, R139). -/
def State.blockWords (s : State) (L : LaneId) (j : Nat) (o : ByteOrder) : List Byte :=
  let l := s.lane L
  (List.range (l.lengthOf j)).flatMap fun i =>
    wordBytes l.width o (deliveredWord l.width l.rounding (Cells.read 0 (l.cell (l.firstOf j + i)) s.store.restored))

/-- The RESTORED frame of block `j`, formed at its taking (R22, R140, R186). -/
def State.restoredFrame (s : State) (L : LaneId) (j : Nat) (o : ByteOrder) : OutFrame :=
  let l := s.lane L
  ⟨.restored, laneByte L, 0, 0, 0,
    beBytes 4 (l.firstOf j) ++ beBytes 2 (l.lengthOf j) ++ [l.width.byte] ++ s.blockWords L j o⟩

/-- A record touching block `j` freezes (R59). -/
def Lane.freezeAt (l : Lane) (j : Nat) (r : Record) : Record :=
  if r.state = .live ∧ r.meets (l.firstOf j) (l.lastOf j) then { r with state := .frozen } else r

/-- The record is completed by the release of block `j`: its end lies in the block, or, where the block is the
final one, at or beyond its first position while its start lies at or before its last (R60, R63). -/
def Lane.completes (l : Lane) (j : Nat) (r : Record) : Bool :=
  decide (l.firstOf j ≤ r.last) && (decide (r.last ≤ l.lastOf j) || (l.isFinal j && decide (r.start ≤ l.lastOf j)))

/-- The starts of completed records cut into LOG frames of up to 16 (R61). -/
def cutLog (first : Nat) : Nat → List Nat → List LogFrame
  | 0, _ => []
  | _, [] => []
  | fuel + 1, starts =>
    let rest := starts.drop Config.logFrameMax
    ⟨first, starts.take Config.logFrameMax, !rest.isEmpty⟩ :: cutLog first fuel rest

/-- The list and log queue after the release of block `j` (R59 to R61). -/
def Lane.complete (l : Lane) (j : Nat) : Lane :=
  let frozen := l.list.map (l.freezeAt j)
  if l.log then
    let done := (frozen.filter (l.completes j)).map Record.start
    { l with list := frozen, logQueue := l.logQueue ++ cutLog (l.firstOf j) done.length done }
  else { l with list := frozen.filter fun r => !l.completes j r }

/-- One more record counted in the entry of the block that holds its start (R181). -/
def countStart (l : Lane) (w : List WindowEntry) (r : Record) : List WindowEntry :=
  w.map fun e => if e.block = l.ord r.start then { e with count := e.count + 1 } else e

/-- The grade window after the release of block `j` (R181). -/
def Lane.windowAfter (l : Lane) (j : Nat) : List WindowEntry :=
  let w := l.window ++ [⟨j, (l.block j).tally⟩]
  let w := if Config.windowMax < w.length then w.tail else w
  (l.list.filter (l.completes j)).foldl (countStart l) w

/-- The grade of a window count under the ACTIVE copy's thresholds (R182). -/
def gradeOf (p : Profile) (n : Nat) : Grade :=
  if n ≤ p.g1 then .A else if n ≤ p.g2 then .B else if n ≤ p.g3 then .C else .D

/-- The window and the grade after the release of block `j` (R181, R182). -/
def Lane.regrade (l : Lane) (j : Nat) : Lane :=
  let w := l.windowAfter j
  { l with window := w, grade := gradeOf l.activeProfile ((w.map (·.count)).sum) }

/-- The lane record after the release of block `j` (R23): records, window and grade, slot, release point, count. -/
def Lane.released (l : Lane) (j : Nat) : Lane :=
  let graded := { l.complete j with window := (l.regrade j).window, grade := (l.regrade j).grade }
  ({ graded.setBlock j {} with release := l.release + l.lengthOf j } : Lane).count .released

/-- The arbiter of port `p` takes the RESTORED frame of lane `L`: its oldest unreleased block is released (R23). -/
def State.release (s : State) (p : Port) (L : LaneId) : State :=
  let l := s.lane L
  let j := l.oldest
  let sent := s.modPort p fun q => { q with pointer := L }.send (s.restoredFrame L j q.order)
  let lost := (sent.modPort .A (·.loseIf (· == ⟨L, l.firstOf j⟩))).modPort .B (·.loseIf (· == ⟨L, l.firstOf j⟩))
  let t := (lost.modLane L (Lane.released · j)).assess
  let graded :=
    if (t.lane L).grade = l.grade then t
    else t.raise .grade (some L) (t.lane L).release (t.lane L).grade.number
  graded.settleLane L

/-- RELEASE (R23). -/
def execRelease (p : Port) (s : State) : Host.Outcome State Fault Refusal :=
  match s.chosen p with
  | some (.restored L) => .next (s.event.release p L)
  | _ => .next s

end Sys2Proof.Machine
end

