-- ==== Sys2Proof/Machine/Requests.lean ====
section
/-! DEFINITION. The taking of a request from a port's queue and its answer (R158, R159, R185), and the requests of
Chapters 9 and 10: PORT SETUP, NOTICE MASK, CONDITION, IDENTIFY, and the malformed and unknown entries. -/

namespace Sys2Proof.Machine
open Sys2Proof

/-! ### Taking and answering -/

/-- The queue of which `e` is the oldest entry, less `e` (R158). On an empty queue the command stands for the
entry's arrival followed by its taking (assumption log 4). -/
def PortRec.popped (q : PortRec) (e : Entry) : Option PortRec :=
  match q.queue with
  | [] => some { q.enqueue e with queue := [] }
  | x :: t => if x = e then some { q with queue := t } else none

/-- The port can take entry `e` now: its link is UP and no request is in progress (R158). What is left is the port
without the entry. -/
def PortRec.taking (q : PortRec) (e : Entry) : Option PortRec :=
  if q.link = .up ∧ q.inProgress = none then q.popped e else none

/-- Entry `e` of port `p` is taken and `f` is its whole effect. If the port cannot take it now, nothing happens
(assumption log 3). -/
def State.take (s : State) (p : Port) (e : Entry) (f : State → State) : Host.Outcome State Fault Refusal :=
  match (s.port p).taking e with
  | some q => .next (f (s.event.setPort p q))
  | none => .next s

/-- The RESPONSE to the request being taken is formed and joins the answer list; the request is in progress until
the arbiter takes it (R158). -/
def State.answer (s : State) (p : Port) (tag : Half) (lane : Byte) (st : Status) (payload : List Byte) : State :=
  s.modPort p fun q =>
    { q with inProgress := some tag, answers := q.answers ++ [⟨tag, lane, st, payload, false⟩] }

/-- The payload of a refusal: the request code, then zeros to the length of its row (R185). -/
def zeroPayload (code : Byte) (length : Nat) : List Byte := code :: List.replicate (length - 1) 0#8

/-- A refusal (R185). -/
def State.refuse (s : State) (p : Port) (tag : Half) (lane : Byte) (st : Status) (code : Byte) (length : Nat) :
    State :=
  s.answer p tag lane st (zeroPayload code length)

/-- Requests that count as parked: those waiting, and the answered ones whose RESPONSE has not been taken (R159). -/
def PortRec.parkedCount (q : PortRec) : Nat := q.parked.length + (q.answers.filter (·.ofParked)).length

/-- A request is parked (R159). -/
def State.park (s : State) (p : Port) (k : Parked) : State :=
  s.modPort p fun q => { q with parked := q.parked ++ [k] }

/-! ### Entries that are no request -/

/-- MALFORMED_ENTRY (R158). -/
def execMalformedEntry (p : Port) (tag : Half) (lane : Byte) (s : State) : Host.Outcome State Fault Refusal :=
  s.take p (.malformed tag lane) (·.answer p tag lane .malformed [])

/-- UNKNOWN_ENTRY (R158). -/
def execUnknownEntry (p : Port) (tag : Half) (lane : Byte) (s : State) : Host.Outcome State Fault Refusal :=
  s.take p (.unknown tag lane) (·.answer p tag lane .unknown [])

/-! ### PORT SETUP (R166) -/

/-- A field whose code names no defined value leaves its setting. -/
def PortRec.setup (q : PortRec) (width order delivery : Byte) : PortRec :=
  { q with
    width := (widthOf width).getD q.width
    order := (orderOf order).getD q.order
    delivery := (onOff delivery).getD q.delivery }

/-- The three settings as they stand. -/
def PortRec.setupReport (q : PortRec) : List Byte := [0x40#8, q.width.byte, q.order.byte, flagByte q.delivery]

def State.portSetup (s : State) (p : Port) (tag : Half) (lane : Byte) (width order delivery : Byte) : State :=
  let t := s.modPort p (·.setup width order delivery)
  t.answer p tag lane .done (t.port p).setupReport

/-- PORT_SETUP (R166, R167). -/
def execPortSetup (p : Port) (tag : Half) (lane : Byte) (width order delivery : Byte) (s : State) :
    Host.Outcome State Fault Refusal :=
  s.take p (.whole tag lane (.portSetup width order delivery)) (·.portSetup p tag lane width order delivery)

/-! ### NOTICE MASK (R177) -/

/-- A field of neither code leaves its category's mask. -/
def PortRec.maskWith (q : PortRec) (m : Vector Byte 6) : PortRec :=
  { q with masks := Vector.ofFn fun c => (maskOf m[c.val]).getD q.masks[c.val] }

/-- The pending summary of a category: bit j for lane j, bit 6 for the unit (R185). -/
def PortRec.summary (q : PortRec) (c : Fin 6) : Byte :=
  natByte ((List.finRange 7).map fun j =>
    if (q.entries[7 * c.val + j.val]'(by omega)).isSome then 2 ^ j.val else 0).sum

def PortRec.maskReport (q : PortRec) : List Byte :=
  0x50#8 :: q.masks.toList.map flagByte ++ (List.finRange 6).map q.summary

def State.noticeMask (s : State) (p : Port) (tag : Half) (lane : Byte) (m : Vector Byte 6) : State :=
  let t := s.modPort p (·.maskWith m)
  t.answer p tag lane .done (t.port p).maskReport

/-- NOTICE_MASK (R177). -/
def execNoticeMask (p : Port) (tag : Half) (lane : Byte) (m : Vector Byte 6) (s : State) :
    Host.Outcome State Fault Refusal :=
  s.take p (.whole tag lane (.noticeMask m)) (·.noticeMask p tag lane m)

/-! ### CONDITION (R180) -/

/-- The window count (R182). -/
def Lane.windowCount (l : Lane) : Nat := (l.window.map (·.count)).sum

/-- The values of a lane in its CONDITION record: counters, grade, window entries and window count (11.7). -/
def Lane.conditionValues (l : Lane) : List Byte :=
  l.counters.toList.flatMap (beBytes 4) ++ [natByte l.grade.number, natByte l.window.length] ++ beBytes 2 l.windowCount

/-- The CONDITION lane record (11.7). A CLOSED lane not opened since a reset gives zeros (R180), its grade
among them (assumption log 22). -/
def State.laneCondition (s : State) (L : LaneId) : List Byte :=
  let l := s.lane L
  [0x51#8, 0#8, laneByte L, l.state.byte] ++
  if l.state = .closed ∧ l.everOpened = false then List.replicate 68 0#8 else l.conditionValues

/-- The CONDITION port record (11.7). -/
def State.portCondition (s : State) (k : Port) : List Byte :=
  let q := s.port k
  [0x51#8, 1#8, portByte k, q.link.byte] ++ beBytes 4 q.crcError ++ beBytes 4 q.malformed ++ beBytes 4 q.stray ++
  beBytes 4 q.dropped

/-- A refused form is answered in the LANE layout (R185). -/
def State.condition (s : State) (p : Port) (tag : Half) (lane : Byte) (form which : Byte) : State :=
  if form = 0#8 then
    match laneOf which with
    | some L => s.answer p tag lane .done (s.laneCondition L)
    | none => s.refuse p tag lane .range 0x51#8 72
  else if form = 1#8 then
    match portOf which with
    | some k => s.answer p tag lane .done (s.portCondition k)
    | none => s.refuse p tag lane .range 0x51#8 20
  else s.refuse p tag lane .range 0x51#8 72

/-- CONDITION (R180). -/
def execCondition (p : Port) (tag : Half) (lane : Byte) (form which : Byte) (s : State) :
    Host.Outcome State Fault Refusal :=
  s.take p (.whole tag lane (.condition form which)) (·.condition p tag lane form which)

/-! ### IDENTIFY (R183) -/

/-- The IDENTIFY record (11.7). -/
def identifyRecord (p : Port) : List Byte :=
  0x52#8 :: beBytes 2 0x5054 ++ beBytes 2 3320 ++ [1#8, 6#8, 2#8] ++ beBytes 2 256 ++ beBytes 2 4096 ++
  [32#8, 4#8] ++ beBytes 2 256 ++ beBytes 2 1024 ++ [8#8, portByte p]

/-- IDENTIFY (R183). -/
def execIdentify (p : Port) (tag : Half) (lane : Byte) (s : State) : Host.Outcome State Fault Refusal :=
  s.take p (.whole tag lane .identify) (·.answer p tag lane .done (identifyRecord p))

end Sys2Proof.Machine
end

