-- ==== Sys2Proof/Machine/Edits.lean ====
section
/-! DEFINITION. The Edit Unit (Chapter 4): EDIT in its four actions (R66 to R74), RESERVE (R79), CURSOR SET (R83),
LIST READ (R84) and SYNC (R86). -/

namespace Sys2Proof.Machine
open Sys2Proof

/-! ### EDIT: checks and answer (R66, R67) -/

/-- What an EDIT's own checks decide: a refusal, or DONE with the part after it and what the answer says of the
record made: its start, its length and the records it absorbed. -/
inductive EditResult where
  | refused (st : Status)
  | done (s : State) (start length absorbed : Nat)
  deriving DecidableEq, Repr

/-- The payload of an EDIT's answer; a refused EDIT carries the edit number alone (R67, R185). -/
def editPayload (action : Byte) (edit start length absorbed : Nat) : List Byte :=
  [0x10#8, action] ++ beBytes 4 edit ++ beBytes 4 start ++ beBytes 2 length ++ beBytes 2 absorbed

/-- Port `p` holds a reservation on lane `L` (R80). -/
def PortRec.reserves (q : PortRec) (L : LaneId) : Bool := q.reservation.any fun r => r.lane == L

/-- Checks 1 to 4 of R66, for the rows whose action is one of the four. -/
def State.checkEdit (s : State) (p : Port) (lane : Byte) (a : EditArgs) : Status ⊕ LaneId :=
  match laneOf lane with
  | none => .inl .range
  | some L =>
    if a.action = actionVeto ∨ a.action = actionRestore ∨ a.action = actionForce ∨ a.action = actionSplice then
      if (s.lane L).isOpen then
        if a.conditional = 0#8 ∨ (s.port p).reserves L then .inr L else .inl .lost
      else .inl .nolane
    else .inl .range

/-- The edit number a refused EDIT carries: 0 where the lane number fails, and on a CLOSED lane (R67). -/
def State.editNumber (s : State) (lane : Byte) : Nat :=
  match laneOf lane with
  | none => 0
  | some L => if (s.lane L).isOpen then (s.lane L).edit else 0

/-- A refused EDIT is answered (R67). -/
def State.refuseEdit (s : State) (p : Port) (tag : Half) (lane : Byte) (st : Status) : State :=
  s.answer p tag lane st (editPayload 0#8 (s.editNumber lane) 0 0 0)

/-- The sending port's reservation is cleared (R66). -/
def State.clearReservation (s : State) (p : Port) : State := s.modPort p fun q => { q with reservation := none }

/-- An EDIT: the checks of R66, the action's own checks and effect, the answer, the reservation cleared. -/
def State.edit (s : State) (p : Port) (tag : Half) (lane : Byte) (a : EditArgs)
    (own : State → LaneId → EditResult) : State :=
  match s.checkEdit p lane a with
  | .inl st => (s.refuseEdit p tag lane st).clearReservation p
  | .inr L =>
    match own s L with
    | .refused st => (s.refuseEdit p tag lane st).clearReservation p
    | .done t start length absorbed =>
      ((t.answer p tag lane .done (editPayload a.action (t.lane L).edit start length absorbed)).clearReservation
        p).grant

/-! ### VETO and RESTORE (R68, R69) -/

/-- A record's disposition is changed: the edit number, the marks and the other port's reservation (R68, R69, R75,
R76, R81). -/
def State.dispose (s : State) (p : Port) (L : LaneId) (r : Record) (d : Disp) : State :=
  ((s.setList L (updateRecord r.start (fun r => { r with disp := d }) (s.lane L).list)).modLane L
    (Lane.editMark · r.start r.last)).recordEdited p L r.start r.last

/-- The table of R68, and of R69 with the dispositions exchanged; `changed` is what a change adds. -/
def State.disposeAt (s : State) (p : Port) (L : LaneId) (start : Nat) (d : Disp) (changed : State → State) :
    EditResult :=
  match findRecord start (s.lane L).list with
  | none => .refused .norec
  | some r =>
    match r.state with
    | .opened => .refused .state
    | .frozen => .refused .tooLate
    | .live => if r.disp = d then .done s 0 0 0 else .done (changed (s.dispose p L r d)) 0 0 0

/-- EDIT VETO's own checks and effect (R68). -/
def State.veto (p : Port) (a : EditArgs) (s : State) (L : LaneId) : EditResult :=
  s.disposeAt p L a.pos.toNat .vetoed (·.count L .veto)

/-- EDIT RESTORE's own checks and effect (R69). -/
def State.restore (p : Port) (a : EditArgs) (s : State) (L : LaneId) : EditResult :=
  s.disposeAt p L a.pos.toNat .applied id

/-! ### FORCE and SPLICE (R70 to R74) -/

/-- The record lies wholly inside `lo` to `hi`. -/
def Record.inside (r : Record) (lo hi : Nat) : Bool := decide (lo ≤ r.start) && decide (r.last ≤ hi)

/-- The overlap conditions of R70 over `lo` to `hi`. -/
def overlapOk (rs : List Record) (lo hi : Nat) : Bool :=
  rs.all fun r => !r.meets (lo - 1) (hi + 1) || (r.inside lo hi && r.mergeable)

def absorbedBy (rs : List Record) (lo hi : Nat) : List Record := rs.filter (·.inside lo hi)

def listWithout (rs : List Record) (lo hi : Nat) : List Record := rs.filter fun r => !r.inside lo hi

/-- The origin of a record a port's EDIT makes (R49). -/
def originOf : Port → Origin
  | .A => .portA
  | .B => .portB

/-- The anchor of an EDIT's record at position `pos`, or absent where the analyser has yet to take it (R73). On a lane
whose analysis has finished it takes no further position: `pos` lies beyond the lane's last, and the anchor is 0 (R52,
R63; assumption log 20). -/
def State.editAnchor (s : State) (L : LaneId) (pos : Nat) : Option Int :=
  let l := s.lane L
  if pos < l.analysis then some (s.anchorAt L pos) else if l.finished then some 0 else none

/-- The record of a FORCE or SPLICE over `lo` to `hi` (R71, R73). A FORCE lies wholly behind the analysis point, so
both its anchors are read. -/
def State.editRecord (s : State) (p : Port) (L : LaneId) (kind : Kind) (lo hi : Nat) : Record where
  start := lo
  length := hi + 1 - lo
  kind := kind
  origin := originOf p
  state := .live
  disp := .applied
  ratio := 0
  before := s.editAnchor L (lo - 1)
  after := s.editAnchor L (hi + 1)

/-- The overlap and pool checks, and the effect of a FORCE or SPLICE that passes them (R71, R73). -/
def State.addRecord (s : State) (p : Port) (L : LaneId) (kind : Kind) (c : Ctr) (lo hi : Nat) : EditResult :=
  let rs := (s.lane L).list
  if overlapOk rs lo hi then
    let freed := s.setList L (listWithout rs lo hi)
    if freed.canTake L then
      let made := (freed.setList L (insertRecord (s.editRecord p L kind lo hi) (listWithout rs lo hi))).assess
      .done (((made.modLane L (Lane.editMark · lo hi)).count L c).recordEdited p L lo hi) lo (hi + 1 - lo)
        (absorbedBy rs lo hi).length
    else .refused .nospace
  else .refused .overlap

/-- The position before `lo` exists and has not been released (R70 and R72, check 2). -/
def Lane.unreleasedBefore (l : Lane) (lo : Nat) : Bool := decide (0 < lo) && decide (l.release ≤ lo - 1)

/-- EDIT FORCE's own checks and effect (R70, R71). -/
def State.force (p : Port) (a : EditArgs) (s : State) (L : LaneId) : EditResult :=
  let lo := a.pos.toNat
  let n := a.length.toNat
  if n = 0 ∨ Config.maxSpan < n ∨ Config.topPos < lo + n then .refused .range
  else if (s.lane L).unreleasedBefore lo = false then .refused .tooLate
  else if (s.lane L).analysis ≤ lo + n then .refused .range
  else s.addRecord p L .forced .forced lo (lo + n - 1)

/-- EDIT SPLICE's own checks and effect (R72 to R74). -/
def State.splice (p : Port) (a : EditArgs) (s : State) (L : LaneId) : EditResult :=
  let c := a.pos.toNat
  let ls := (s.lane L).activeProfile.ls
  if c < ls ∨ Config.maxPos < c + ls then .refused .range
  else if (s.lane L).unreleasedBefore (c - ls) = false then .refused .tooLate
  else if (s.lane L).analysis + 16383 < c + ls then .refused .range
  else s.addRecord p L .splice .splice (c - ls) (c + ls)

/-! ### The rows of EDIT -/

/-- The entry an EDIT command takes from the queue; a command whose action is not its row's is no event. -/
def State.takeEdit (s : State) (p : Port) (tag : Half) (lane : Byte) (a : EditArgs) (ofRow : Bool)
    (own : State → LaneId → EditResult) : Host.Outcome State Fault Refusal :=
  if ofRow then s.take p (.whole tag lane (.edit a)) (·.edit p tag lane a own) else .next s

/-- EDIT_VETO (R66, R68). -/
def execEditVeto (p : Port) (tag : Half) (lane : Byte) (a : EditArgs) (s : State) :
    Host.Outcome State Fault Refusal :=
  s.takeEdit p tag lane a (actionOfVetoRow a.action) (State.veto p a)

/-- EDIT_RESTORE (R66, R69). -/
def execEditRestore (p : Port) (tag : Half) (lane : Byte) (a : EditArgs) (s : State) :
    Host.Outcome State Fault Refusal :=
  s.takeEdit p tag lane a (a.action == actionRestore) (State.restore p a)

/-- EDIT_FORCE (R66, R70, R71). -/
def execEditForce (p : Port) (tag : Half) (lane : Byte) (a : EditArgs) (s : State) :
    Host.Outcome State Fault Refusal :=
  s.takeEdit p tag lane a (a.action == actionForce) (State.force p a)

/-- EDIT_SPLICE (R66, R72, R73). -/
def execEditSplice (p : Port) (tag : Half) (lane : Byte) (a : EditArgs) (s : State) :
    Host.Outcome State Fault Refusal :=
  s.takeEdit p tag lane a (a.action == actionSplice) (State.splice p a)

/-! ### RESERVE (R79) -/

/-- The checks of R79 after the lane number's: a refusal, or the ordinal of the block reserved. The block that holds a
position is found by ordinal, a short final block's unplaced positions too (assumption log 21). -/
def Lane.checkReserve (l : Lane) (pos : Nat) : Status ⊕ Nat :=
  if l.isOpen = false then .inl .nolane
  else if pos < l.start ∨ l.fill ≤ l.firstOf (l.ord pos) then .inl .range
  else if l.firstOf (l.ord pos) < l.release then .inl .tooLate
  else .inr (l.ord pos)

/-- The answer of a RESERVE taken: the block's first position, its state, the records touching it (R79). -/
def Lane.reserveReport (l : Lane) (j : Nat) : List Byte :=
  0x11#8 :: beBytes 4 (l.firstOf j) ++ [(l.block j).state.byte] ++
  beBytes 2 (l.list.filter (·.meets (l.firstOf j) (l.lastOf j))).length

def State.reserve (s : State) (p : Port) (tag : Half) (lane : Byte) (pos : Word) : State :=
  match laneOf lane with
  | none => s.refuse p tag lane .range 0x11#8 8
  | some L =>
    match (s.lane L).checkReserve pos.toNat with
    | .inl st => s.refuse p tag lane st 0x11#8 8
    | .inr j =>
      (s.modPort p fun q => { q with reservation := some ⟨L, (s.lane L).firstOf j⟩ }).answer p tag lane .done
        ((s.lane L).reserveReport j)

/-- RESERVE (R79). -/
def execReserve (p : Port) (tag : Half) (lane : Byte) (pos : Word) (s : State) : Host.Outcome State Fault Refusal :=
  s.take p (.whole tag lane (.reserve pos)) (·.reserve p tag lane pos)

/-! ### The list cursor (R83, R84) -/

def State.cursorSet (s : State) (p : Port) (tag : Half) (lane : Byte) (pos : Word) : State :=
  match laneOf lane with
  | none => s.refuse p tag lane .range 0x12#8 1
  | some L => (s.modPort p fun q => { q with cursor := ⟨L, pos.toNat⟩ }).answer p tag lane .done [0x12#8]

/-- CURSOR_SET (R83). -/
def execCursorSet (p : Port) (tag : Half) (lane : Byte) (pos : Word) (s : State) :
    Host.Outcome State Fault Refusal :=
  s.take p (.whole tag lane (.cursorSet pos)) (·.cursorSet p tag lane pos)

/-- The records at or after a position, in order. -/
def Lane.recordsFrom (l : Lane) (pos : Nat) : List Record := l.list.filter fun r => decide (pos ≤ r.start)

/-- The LIST READ answer of `n` records from the cursor (R84, R185). -/
def State.listReport (s : State) (c : Cursor) (n : Nat) : List Byte :=
  let l := s.lane c.lane
  let rs := (l.recordsFrom c.pos).take n
  [0x13#8, laneByte c.lane] ++ beBytes 4 l.edit ++
  [natByte rs.length, flagByte (decide (n < (l.recordsFrom c.pos).length))] ++ rs.flatMap Record.wire

/-- The cursor after the read: past the last record returned. -/
def State.cursorAfter (s : State) (c : Cursor) (n : Nat) : Cursor :=
  match (((s.lane c.lane).recordsFrom c.pos).take n).getLast? with
  | some r => { c with pos := r.start + 1 }
  | none => c

def State.listRead (s : State) (p : Port) (tag : Half) (lane : Byte) (n : Byte) : State :=
  let c := (s.port p).cursor
  if n.toNat = 0 ∨ 16 < n.toNat then s.refuse p tag lane .range 0x13#8 8
  else if (s.lane c.lane).isOpen then
    (s.modPort p fun q => { q with cursor := s.cursorAfter c n.toNat }).answer p tag lane .done
      (s.listReport c n.toNat)
  else s.refuse p tag lane .nolane 0x13#8 8

/-- LIST_READ (R84). -/
def execListRead (p : Port) (tag : Half) (lane : Byte) (n : Byte) (s : State) : Host.Outcome State Fault Refusal :=
  s.take p (.whole tag lane (.listRead n)) (·.listRead p tag lane n)

/-! ### SYNC (R86) -/

def State.sync (s : State) (p : Port) (tag : Half) (lane : Byte) : State :=
  match laneOf lane with
  | none => s.refuse p tag lane .range 0x14#8 5
  | some L =>
    let l := s.lane L
    if l.isOpen then
      if l.holdsSync l.edit then
        if (s.port p).parkedCount < Config.parkedMax then s.park p ⟨tag, L, .sync l.edit⟩
        else s.refuse p tag lane .busy 0x14#8 5
      else s.answer p tag lane .done (0x14#8 :: beBytes 4 l.edit)
    else s.refuse p tag lane .nolane 0x14#8 5

/-- SYNC (R86). -/
def execSync (p : Port) (tag : Half) (lane : Byte) (s : State) : Host.Outcome State Fault Refusal :=
  s.take p (.whole tag lane .sync) (·.sync p tag lane)

end Sys2Proof.Machine
end

