-- ==== Sys2Proof/Machine/Lanes.lean ====
section
/-! DEFINITION. The lane requests of Chapter 1 (1.2): LANE OPEN, LANE CLOSE, LANE DRAIN and LANE STATUS. -/

namespace Sys2Proof.Machine
open Sys2Proof

/-! ### LANE OPEN (R2, R3) -/

/-- The slots no lane holds, in ascending number (R9). -/
def State.freeSlots (s : State) : List Nat :=
  (List.range Config.slotCount).filter fun n => laneIds.all fun L => !(s.lane L).ring.contains n

/-- A library slot number. -/
def slotNumber (b : Byte) : Option (Fin 32) := if h : b.toNat < 32 then some ⟨b.toNat, h⟩ else none

/-- The ring sizes of R2: 8 to 64, a multiple of 8. -/
def ringSizeOk (n : Nat) : Bool := decide (8 ≤ n) && decide (n ≤ 64) && n % 8 == 0

/-- The hold depth as held (R3). -/
def holdDepth (requested ringSize : Nat) : Nat := if requested = 0 then 1 else min requested (ringSize - 2)

/-- The settings of a LANE OPEN whose every code is defined. -/
structure OpenSettings where
  source : Port
  sink : Port
  rate : Rate
  slot : Fin 32
  line : Option LineId
  width : Width
  rounding : Rounding
  log : Bool
  deriving DecidableEq, Repr

/-- Checks 3 to 9 of R2, each a refusal with RANGE. -/
def openSettings (a : LaneOpenArgs) : Option OpenSettings :=
  if ringSizeOk a.ringSize.toNat && decide (a.reserve.toNat ≤ 1024) then
    match portOf a.source, portOf a.sink, rateOf a.rate, slotNumber a.slot, boundLineOf a.line, widthOf a.width,
      roundingOf a.rounding, onOff a.log with
    | some source, some sink, some rate, some slot, some line, some width, some rounding, some log =>
      some ⟨source, sink, rate, slot, line, width, rounding, log⟩
    | _, _, _, _, _, _, _, _ => none
  else none

/-- Checks 10 and 11 of R2. -/
def State.hasRoom (s : State) (a : LaneOpenArgs) : Bool :=
  decide (a.ringSize.toNat ≤ s.freeSlots.length) && decide (a.reserve.toNat ≤ s.freeCommon)

/-- The lane record of a LANE OPEN taken (R3, R9, R148). -/
def openedLane (a : LaneOpenArgs) (o : OpenSettings) (ring : List Nat) (p : Profile) : Lane :=
  { Lane.reset with
    state := .active
    source := o.source
    sink := o.sink
    rate := o.rate
    ring := ring
    hold := holdDepth a.hold.toNat a.ringSize.toNat
    reserve := a.reserve.toNat
    line := o.line
    start := a.start.toNat
    width := o.width
    rounding := o.rounding
    log := o.log
    fill := a.start.toNat
    analysis := a.start.toNat
    render := a.start.toNat
    release := a.start.toNat
    blocks := { state := .filling } :: List.replicate (ring.length - 1) {}
    active := some ⟨p, 0, o.slot.val⟩
    everOpened := true }

/-- The effect of a LANE OPEN taken (R3): the lane, the zeroed checkpoint of its first slot, the pool, the notice. -/
def State.openLane (s : State) (L : LaneId) (a : LaneOpenArgs) (o : OpenSettings) : State :=
  let ring := s.freeSlots.take a.ringSize.toNat
  let t := (s.setLane L (openedLane a o ring s.library[o.slot.val])).setStore
    (s.store.setCheckpoint (ring.headD 0) Checkpoint.zero)
  t.assess.raise .laneOpened (some L) a.start.toNat 0

/-- The check of R2 that fails first, or the lane and settings to open. -/
def State.checkOpen (s : State) (lane : Byte) (a : LaneOpenArgs) : Status ⊕ (LaneId × OpenSettings) :=
  match laneOf lane with
  | none => .inl .range
  | some L =>
    if (s.lane L).isOpen then .inl .state
    else
      match openSettings a with
      | none => .inl .range
      | some o => if s.hasRoom a then .inr (L, o) else .inl .nospace

def State.laneOpen (s : State) (p : Port) (tag : Half) (lane : Byte) (a : LaneOpenArgs) : State :=
  match s.checkOpen lane a with
  | .inl st => s.refuse p tag lane st 0x01#8 2
  | .inr (L, o) =>
    let d := holdDepth a.hold.toNat a.ringSize.toNat
    (s.openLane L a o).answer p tag lane (if d = a.hold.toNat then .done else .clamped) [0x01#8, natByte d]

/-- LANE_OPEN (R2, R3). -/
def execLaneOpen (p : Port) (tag : Half) (lane : Byte) (a : LaneOpenArgs) (s : State) :
    Host.Outcome State Fault Refusal :=
  s.take p (.whole tag lane (.laneOpen a)) (·.laneOpen p tag lane a)

/-! ### LANE CLOSE (R8) -/

/-- The render in flight is abandoned if it is the lane's (R107). -/
def Engine.abandon (e : Engine) (L : LaneId) : Engine :=
  { e with inFlight := e.inFlight.map fun r => if r.lane = L then { r with abandoned := true } else r }

/-- The lane is abandoned at once (R8, R64, R82, R88, R107). -/
def State.abandonLane (s : State) (L : LaneId) : State :=
  let release := (s.lane L).release
  let t := (s.modPort .A (·.answerWhere (·.lane == L) .closed Parked.closedPayload)).modPort .B
    (·.answerWhere (·.lane == L) .closed Parked.closedPayload)
  ((t.setEngine (t.engine.abandon L)).closeLane L).raise .laneClosed (some L) release 0

def State.laneClose (s : State) (p : Port) (tag : Half) (lane : Byte) : State :=
  match laneOf lane with
  | none => s.refuse p tag lane .range 0x02#8 1
  | some L =>
    if (s.lane L).isOpen then (s.abandonLane L).answer p tag lane .done [0x02#8]
    else s.refuse p tag lane .state 0x02#8 1

/-- LANE_CLOSE (R8). -/
def execLaneClose (p : Port) (tag : Half) (lane : Byte) (s : State) : Host.Outcome State Fault Refusal :=
  s.take p (.whole tag lane .laneClose) (·.laneClose p tag lane)

/-! ### LANE DRAIN (R5) -/

def State.laneDrain (s : State) (p : Port) (tag : Half) (lane : Byte) : State :=
  match laneOf lane with
  | none => s.refuse p tag lane .range 0x03#8 1
  | some L =>
    if (s.lane L).state = .active then
      if (s.port p).parkedCount < Config.parkedMax then
        ((s.modLane L fun l => { l with state := .draining }).park p ⟨tag, L, .drain⟩).settleLane L
      else s.refuse p tag lane .busy 0x03#8 1
    else s.refuse p tag lane .state 0x03#8 1

/-- LANE_DRAIN (R5, R6). -/
def execLaneDrain (p : Port) (tag : Half) (lane : Byte) (s : State) : Host.Outcome State Fault Refusal :=
  s.take p (.whole tag lane .laneDrain) (·.laneDrain p tag lane)

/-! ### LANE STATUS (R4) -/

def Lane.countBlocks (l : Lane) (b : BlockState) : Nat := (l.blocks.filter (·.state == b)).length

/-- The latch of the most recent start of analysis of a block of the lane, or zeros (R4). -/
def State.lastLatch (s : State) (L : LaneId) : Latch :=
  let l := s.lane L
  if l.start < l.analysis then (s.store.checkpoint (l.slotOf (l.ord (l.analysis - 1)))).latch else Latch.zero

/-- The LANE STATUS record of an open lane (11.7). -/
def State.openStatus (s : State) (L : LaneId) : List Byte :=
  let l := s.lane L
  let latch := s.lastLatch L
  [0x04#8, l.state.byte] ++ beBytes 5 l.fill ++ beBytes 5 l.analysis ++ beBytes 5 l.render ++ beBytes 5 l.release ++
  [natByte (l.countBlocks .free), natByte (l.countBlocks .dirty)] ++
  beBytes 2 (l.list.filter (·.state == .opened)).length ++ beBytes 2 l.list.length ++
  [latch.line.byte] ++ beBytes 4 latch.increment ++
  beBytes 4 ((l.active.map (·.generation)).getD 0) ++ beBytes 4 ((l.retiring.map (·.generation)).getD 0) ++
  [flagByte l.retiring.isSome, flagByte l.held, natByte l.afterHold, natByte l.landing.length]

/-- The LANE STATUS record: every item of a CLOSED lane reads zero (R4). -/
def State.statusRecord (s : State) (L : LaneId) : List Byte :=
  if (s.lane L).isOpen then s.openStatus L else zeroPayload 0x04#8 45

def State.laneStatus (s : State) (p : Port) (tag : Half) (lane : Byte) : State :=
  match laneOf lane with
  | none => s.refuse p tag lane .range 0x04#8 45
  | some L => s.answer p tag lane .done (s.statusRecord L)

/-- LANE_STATUS (R4). -/
def execLaneStatus (p : Port) (tag : Half) (lane : Byte) (s : State) : Host.Outcome State Fault Refusal :=
  s.take p (.whole tag lane .laneStatus) (·.laneStatus p tag lane)

end Sys2Proof.Machine
end

