-- ==== Sys2Proof/Machine/Links.lean ====
section
/-! DEFINITION. Link events (R168, R169), the reset pin (R170) and UNIT RESET (R171, R178). -/

namespace Sys2Proof.Machine
open Sys2Proof

/-- The port after link DOWN (R165, R168): the pointer, the counters and the first-UP flag stand. -/
def PortRec.down (q : PortRec) : PortRec :=
  { PortRec.reset with
    pointer := q.pointer
    crcError := q.crcError
    malformed := q.malformed
    stray := q.stray
    dropped := q.dropped
    firstUp := q.firstUp
    sent := q.sent }

/-- LINK_DOWN (R168). The DOWN of a link that is DOWN does not come (R169). -/
def execLinkDown (p : Port) (s : State) : Host.Outcome State Fault Refusal :=
  s.takePlace ((s.port p).link == .up) (·.modPort p PortRec.down)

/-- The link state becomes UP and its notice is raised toward the port (R169). -/
def State.linkUp (s : State) (p : Port) : State :=
  let code : NoticeCode := if (s.port p).firstUp then .reset else .linkUp
  (s.modPort p fun q => { q with link := .up, firstUp := false }).raiseTo p code none 0 0

/-- LINK_UP (R169). -/
def execLinkUp (p : Port) (s : State) : Host.Outcome State Fault Refusal :=
  s.takePlace ((s.port p).link == .down) (·.linkUp p)

/-- Every block at its reset values (R170). What is not the part's own stands: the levels at the perforation
inputs, the frames already sent, the waiting commands, the numbering of events. -/
def State.resetBlocks (s : State) : State :=
  { State.reset with
    portA := { PortRec.reset with sent := s.portA.sent }
    portB := { PortRec.reset with sent := s.portB.sent }
    lines := mapVec (fun l => Line.reset l.input) s.lines
    events := s.events
    pending := s.pending }

/-- RESET_PIN (R170): the pin is asserted and released. -/
def execResetPin (s : State) : Host.Outcome State Fault Refusal :=
  .next s.event.resetBlocks

/-- The count the RESET notice of a UNIT RESET is made with (R178). -/
def PortRec.resetCount (q : PortRec) : Nat :=
  match q.entries[(entryIndex NoticeCode.reset.category none).val] with
  | some e => if e.code = .reset then min (e.count + 1) 255 else 1
  | none => 1

/-- A port after UNIT RESET, event number `order` (R165, R171, R178). -/
def PortRec.unitReset (q : PortRec) (order : Nat) : PortRec :=
  let clear := { PortRec.reset with link := q.link, firstUp := false, sent := q.sent }
  if q.link = .up then
    { clear with
      entries := clear.entries.set (entryIndex NoticeCode.reset.category none).val
        (some ⟨.reset, q.resetCount, 0, 0, order⟩) }
  else clear

/-- UNIT RESET (R171). -/
def State.unitReset (s : State) : State :=
  { s.resetBlocks with portA := s.portA.unitReset s.events, portB := s.portB.unitReset s.events }

/-- UNIT_RESET (R171): it is not answered. -/
def execUnitReset (p : Port) (tag : Half) (lane : Byte) (s : State) : Host.Outcome State Fault Refusal :=
  s.take p (.whole tag lane .unitReset) State.unitReset

end Sys2Proof.Machine
end

