-- ==== Sys2Proof/Machine/Profiles.lean ====
section
/-! DEFINITION. The Profile Library (Chapter 8): PROFILE WRITE (R144, R145), PROFILE READ (R147) and REFRESH (R149,
R150). -/

namespace Sys2Proof.Machine
open Sys2Proof

/-! ### PROFILE WRITE -/

/-- Checks 1 to 5 of R144: the slot and the record it would hold, or nothing where one fails. -/
def checkWrite (slot : Byte) (r : ProfileRaw) : Option (Fin 32 × Profile) :=
  match slotNumber slot, modeOf r.mode with
  | some n, some m =>
    let held := clampedProfile r m
    if notDecreasing held.levels.toList && decide (held.g1 ≤ held.g2) && decide (held.g2 ≤ held.g3) then some (n, held)
    else none
  | _, _ => none

def State.profileWrite (s : State) (p : Port) (tag : Half) (lane : Byte) (slot : Byte) (r : ProfileRaw) : State :=
  match checkWrite slot r with
  | none => s.refuse p tag lane .range 0x30#8 82
  | some (n, held) =>
    ({ s with library := s.library.set n.val held } : State).answer p tag lane
      (if held = carriedProfile r held.mode then .done else .clamped) ([0x30#8, slot] ++ held.wire)

/-- PROFILE_WRITE (R144, R145). -/
def execProfileWrite (p : Port) (tag : Half) (lane : Byte) (slot : Byte) (r : ProfileRaw) (s : State) :
    Host.Outcome State Fault Refusal :=
  s.take p (.whole tag lane (.profileWrite slot r)) (·.profileWrite p tag lane slot r)

/-! ### PROFILE READ -/

/-- The working copy a lane form names, or the refusal of checks 2 to 4 of R147. -/
def State.copyRead (s : State) (retiring : Bool) (which : Byte) : Status ⊕ WorkingCopy :=
  match laneOf which with
  | none => .inl .range
  | some L =>
    if (s.lane L).isOpen then
      if retiring then
        match (s.lane L).retiring with
        | some w => .inr w
        | none => .inl .state
      else
        match (s.lane L).active with
        | some w => .inr w
        | none => .inl .nolane
    else .inl .nolane

/-- The PROFILE READ answer (R147, R185). -/
def readPayload (form which : Byte) (generation slot : Nat) (r : Profile) : List Byte :=
  [0x31#8, form, which] ++ beBytes 4 generation ++ [natByte slot] ++ r.wire

def State.profileRead (s : State) (p : Port) (tag : Half) (lane : Byte) (form which : Byte) : State :=
  if form = 0#8 then
    match slotNumber which with
    | none => s.refuse p tag lane .range 0x31#8 88
    | some n => s.answer p tag lane .done (readPayload form which 0 0 s.library[n.val])
  else if form = 1#8 ∨ form = 2#8 then
    match s.copyRead (form == 2#8) which with
    | .inl st => s.refuse p tag lane st 0x31#8 88
    | .inr w => s.answer p tag lane .done (readPayload form which w.generation w.slot w.profile)
  else s.refuse p tag lane .range 0x31#8 88

/-- PROFILE_READ (R147). -/
def execProfileRead (p : Port) (tag : Half) (lane : Byte) (form which : Byte) (s : State) :
    Host.Outcome State Fault Refusal :=
  s.take p (.whole tag lane (.profileRead form which)) (·.profileRead p tag lane form which)

/-! ### REFRESH -/

/-- The generation of the ACTIVE copy. -/
def Lane.generation (l : Lane) : Nat := (l.active.map (·.generation)).getD 0

/-- The checks of R149. -/
def State.checkRefresh (s : State) (lane slot : Byte) : Status ⊕ (LaneId × Fin 32) :=
  match laneOf lane, slotNumber slot with
  | some L, some n =>
    if (s.lane L).isOpen = false then .inl .nolane
    else if (s.lane L).retiring.isSome then .inl .busy
    else if Config.max32 ≤ (s.lane L).generation then .inl .range
    else .inr (L, n)
  | _, _ => .inl .range

/-- Steps 1 and 2 of R149. -/
def State.newCopy (s : State) (L : LaneId) (n : Fin 32) : State :=
  s.modLane L fun l =>
    { l with active := some ⟨s.library[n.val], l.generation + 1, n.val⟩, retiring := l.active }

def State.refresh (s : State) (p : Port) (tag : Half) (lane : Byte) (slot : Byte) : State :=
  match s.checkRefresh lane slot with
  | .inl st => s.refuse p tag lane st 0x32#8 6
  | .inr (L, n) =>
    let t := s.newCopy L n
    let u := t.when (t.discardDue L) (·.discardRetiring L)
    u.answer p tag lane .done
      (0x32#8 :: beBytes 4 (u.lane L).generation ++ [flagByte (u.lane L).retiring.isSome])

/-- REFRESH (R149, R150). -/
def execRefresh (p : Port) (tag : Half) (lane : Byte) (slot : Byte) (s : State) :
    Host.Outcome State Fault Refusal :=
  s.take p (.whole tag lane (.refresh slot)) (·.refresh p tag lane slot)

end Sys2Proof.Machine
end

