-- ==== Sys2Proof/Machine/Timers.lean ====
section
/-! DEFINITION. The Perforation Timers (Chapter 6): the edge filter (R113, R114), period capture (R115 to R117,
R119), the timeouts (R118, R120), their notices (R121), and the running of the tick counter (R109).

Time. The counter runs in two ways: a step on an empty queue is one tick, and an event of a line, which names its
tick, lets the counter run on to that tick. On the way every filter sample and every timeout of every line takes
place at its own tick; those of the tick arrived at are left open, so that either order of R122 can be commanded
(assumption log 2). -/

namespace Sys2Proof.Machine
open Sys2Proof

/-! ### Notices and counters of line events -/

/-- A line event raised (R121): in the TIMING entry of each open lane bound to the line, with that lane's analysis
point, or in the unit's, with the line number, if none is. -/
def State.raiseLine (s : State) (k : LineId) (code : NoticeCode) : State :=
  let bound := laneIds.filter fun L => (s.lane L).isOpen && (s.lane L).line == some k
  if bound.isEmpty then s.raise code none k.val k.val
  else bound.foldl (fun t L => t.raise code (some L) (s.lane L).analysis k.val) s

/-- The COAST entries or LOST entries counter of each open lane bound to the line (R121). -/
def State.countLine (s : State) (k : LineId) (c : Ctr) : State :=
  (laneIds.filter fun L => (s.lane L).isOpen && (s.lane L).line == some k).foldl (fun t L => t.count L c) s

/-! ### Period capture -/

/-- An edge at `t` is accepted: the new reference and silence base, and pending Tc and Tl become current (R115). -/
def Line.accept (l : Line) (t : Tick) : Line :=
  { l with
    reference := some t
    silence := t
    tc := (l.tPending.map (·.1)).getD l.tc
    tl := (l.tPending.map (·.2)).getD l.tl
    tPending := none }

/-- The smoothed period after period `p` (R117). -/
def smoothed (ps p : Nat) : Nat := ((ps : Int) + asr ((p : Int) - (ps : Int)) 2).toNat

/-- Two successive periods agree (R116). -/
def agrees (prev p : Nat) : Bool := decide (8 * ((p : Int) - (prev : Int)).natAbs ≤ prev)

/-- An accepted period in SEARCHING (R116): the line after it, and whether it became TRACKING. -/
def Line.search (l : Line) (p : Nat) : Line × Bool :=
  match l.recent.getLast? with
  | none => ({ l with recent := [p] }, false)
  | some prev =>
    if agrees prev p then
      if l.recent.length = 2 then ({ l with state := .tracking, ps := p, recent := [] }, true)
      else ({ l with recent := l.recent ++ [p] }, false)
    else ({ l with recent := [p] }, false)

/-- An edge of the filter at `t` (R115, R119): the line after it, and whether it entered TRACKING. A DISABLED line
takes no edge (R122). -/
def Line.edge (l : Line) (t : Tick) : Line × Bool :=
  if l.state = .disabled then (l, false)
  else if l.state = .coast ∧ l.coastEdge = false then ({ l.accept t with coastEdge := true }, false)
  else
    match l.reference with
    | none => (l.accept t, false)
    | some r =>
      let p := (t - r).toNat
      if p < Config.minPeriod then (l, false)
      else
        match l.state with
        | .searching => (l.accept t).search p
        | .tracking => ({ l.accept t with ps := smoothed l.ps p }, false)
        | .coast => ({ l.accept t with ps := smoothed l.ps p, state := .tracking, coastEdge := false }, true)
        | .disabled => (l, false)

/-- An edge handled by period capture, with its notice (R115, R121). -/
def State.captureEdge (s : State) (k : LineId) (t : Tick) : State :=
  let (l, locked) := (s.line k).edge t
  let u := s.setLine k l
  if locked then u.raiseLine k .lineTracking else u

/-! ### The edge filter -/

/-- A transition to `level` is an edge under `sense` (R114). -/
def isEdge (sense : Sense) (level : Level) : Bool :=
  match sense, level with
  | .rising, .high => true
  | .falling, .low => true
  | _, _ => false

/-- One filter sample of the standing input (R113, R114): the line after it, and whether it is an edge. A pending n
becomes current. -/
def Line.sample (l : Line) : Line × Bool :=
  let l := { l with n := l.nPending.getD l.n, nPending := none, sampled := true }
  match l.settled with
  | none => ({ l with settled := some l.input, run := 0 }, false)
  | some v =>
    if l.input = v then ({ l with run := 0 }, false)
    else if l.run = 2 then ({ l with settled := some l.input, run := 0 }, isEdge l.sense l.input)
    else ({ l with run := l.run + 1 }, false)

/-- A filter sample of the line is due at this tick (R113). -/
def Line.sampleDue (l : Line) : Bool := l.enable && decide (l.prescaler = 0) && !l.sampled

/-- The filter sample of line `k`, with the edge it may make (R113 to R115). -/
def State.takeSample (s : State) (k : LineId) : State :=
  let (l, edge) := (s.line k).sample
  let u := s.setLine k l
  if edge then u.captureEdge k s.tick else u

/-! ### Timeouts -/

/-- The deadline of the line's timeout in its present state: the coast timeout in TRACKING, the lost timeout in
COAST, the search timeout in SEARCHING (R118, R120). -/
def Line.deadline (l : Line) : Option Tick :=
  match l.state with
  | .disabled => none
  | .tracking => some (l.silence + BitVec.ofNat 24 (l.tc * Config.timeoutUnit))
  | .coast | .searching => some (l.silence + BitVec.ofNat 24 (l.tl * Config.timeoutUnit))

/-- The coast timeout (R118). -/
def State.coastExpires (s : State) (k : LineId) : State :=
  let u := s.setLine k { s.line k with state := .coast, coastEdge := false }
  (u.countLine k .coast).raiseLine k .lineCoast

/-- The lost timeout (R120). -/
def State.lostExpires (s : State) (k : LineId) : State :=
  let u := s.setLine k
    { s.line k with
      state := .searching, reference := none, recent := [], ps := 0, silence := s.tick, coastEdge := false }
  (u.countLine k .lost).raiseLine k .lineLost

/-- The search timeout (R120). -/
def State.searchExpires (s : State) (k : LineId) : State :=
  s.setLine k { s.line k with reference := none, recent := [], silence := s.tick }

/-- The timeout of the line's state takes place. -/
def State.expire (s : State) (k : LineId) : State :=
  match (s.line k).state with
  | .disabled => s
  | .tracking => s.coastExpires k
  | .coast => s.lostExpires k
  | .searching => s.searchExpires k

/-- The timeout of state `st` is due on the line at tick `t`. -/
def Line.timeoutDue (l : Line) (st : LineState) (t : Tick) : Bool := l.state == st && l.deadline == some t

/-! ### The running of the counter -/

/-- `d` ticks pass with nothing due in them (R109, R113). -/
def State.passTicks (s : State) (d : Nat) : State :=
  if d = 0 then s
  else
    { s with
      tick := s.tick + BitVec.ofNat 24 d
      lines := mapVec
        (fun l => if l.enable then { l with prescaler := (l.prescaler + d) % (l.n + 1), sampled := false } else l)
        s.lines }

/-- A filter sample at the standing input would change the line. -/
def Line.sampleMatters (l : Line) : Bool := l.settled != some l.input || l.run != 0 || l.nPending.isSome

/-- Ticks until the line's next filter sample. -/
def Line.untilSample (l : Line) : Nat :=
  if l.prescaler = 0 then (if l.sampled then l.n + 1 else 0) else l.n + 1 - l.prescaler

/-- Ticks until a sample changes the line, or its timeout expires; whichever comes first, a sample before a timeout
of the same tick. -/
def Line.untilEvent (l : Line) (now : Tick) : Option (Nat × Bool) :=
  if l.enable then
    let timeout := l.deadline.map fun d => (d - now).toNat
    if l.sampleMatters then
      match timeout with
      | some d => if l.untilSample ≤ d then some (l.untilSample, true) else some (d, false)
      | none => some (l.untilSample, true)
    else timeout.map fun d => (d, false)
  else none

/-- The line whose event comes first, the lowest number first among those of one tick. -/
def State.nextLineEvent (s : State) : Option (LineId × Nat × Bool) :=
  lineIds.foldl
    (fun best k =>
      match (s.line k).untilEvent s.tick, best with
      | none, b => b
      | some (d, w), none => some (k, d, w)
      | some (d, w), some (j, e, v) => if d < e then some (k, d, w) else some (j, e, v))
    none

/-- `d` ticks pass, each event of a line on the way taken at its tick; those of the tick arrived at stay open.
Fewer events than the fuel given can fall in 2^24 ticks: a line has at most four samples that change it and, with
Tl at least 2, 128 timeouts. -/
def runTicks : Nat → Nat → State → State
  | 0, d, s => s.passTicks d
  | fuel + 1, d, s =>
    match s.nextLineEvent with
    | none => s.passTicks d
    | some (k, e, sample) =>
      if d ≤ e then s.passTicks d
      else
        let t := (s.passTicks e).event
        runTicks fuel (d - e) (if sample then t.takeSample k else t.expire k)

/-- The counter runs on for `d` ticks. -/
def State.runFor (s : State) (d : Nat) : State := runTicks 1024 d s

/-- The counter runs on until it reads `t`, and the event commanded there is taken. -/
def State.runTo (s : State) (t : Tick) : State := (s.runFor (t - s.tick).toNat).event

/-! ### The rows of Chapter 6 -/

/-- PERFORATION_EDGE (R115): the filter reports an edge whose edge time is `t`. -/
def execPerforationEdge (k : LineId) (t : Tick) (s : State) : Host.Outcome State Fault Refusal :=
  .next ((s.runTo t).captureEdge k t)

/-- COAST_TIMEOUT (R118), if it is due at `t`. -/
def execCoastTimeout (k : LineId) (t : Tick) (s : State) : Host.Outcome State Fault Refusal :=
  let u := s.runTo t
  .next (if (u.line k).timeoutDue .tracking t then u.coastExpires k else u)

/-- LOST_TIMEOUT (R120), if it is due at `t`. -/
def execLostTimeout (k : LineId) (t : Tick) (s : State) : Host.Outcome State Fault Refusal :=
  let u := s.runTo t
  .next (if (u.line k).timeoutDue .coast t then u.lostExpires k else u)

/-- SEARCH_TIMEOUT (R120), if it is due at `t`. -/
def execSearchTimeout (k : LineId) (t : Tick) (s : State) : Host.Outcome State Fault Refusal :=
  let u := s.runTo t
  .next (if (u.line k).timeoutDue .searching t then u.searchExpires k else u)

/-- FILTER_SAMPLE (R113, R114): the input of line `k` stands at `level` from tick `t` on, and is sampled there if
a sample is due. The level between samples reaches nothing (11.10). -/
def execFilterSample (k : LineId) (t : Tick) (level : Level) (s : State) : Host.Outcome State Fault Refusal :=
  let u := s.runTo t
  let v := u.setLine k { u.line k with input := level }
  .next (if (v.line k).sampleDue then v.takeSample k else v)

end Sys2Proof.Machine
end

