-- ==== Sys2Proof/Machine/Transport.lean ====
section
/-! DEFINITION. TRANSPORT SETUP (R111, R112). -/

namespace Sys2Proof.Machine
open Sys2Proof

/-- Tc and Tl brought into range (R111). -/
def clampTimeouts (tc tl : Nat) : Nat × Nat :=
  let c := min (max tc 1) 254
  let l := max tl 2
  (c, if l ≤ c then c + 1 else l)

/-- Enable off on an enabled line; the settings the request carries are then those of a DISABLED line (R112). -/
def Line.disable (l : Line) : Line :=
  { l with
    state := .disabled
    enable := false
    prescaler := 0
    settled := none
    run := 0
    reference := none
    recent := []
    ps := 0
    coastEdge := false
    sampled := false }

/-- Settings that become current at once, none left pending (R112). -/
def Line.settings (l : Line) (sense : Sense) (n tc tl : Nat) : Line :=
  { l with sense := sense, n := n, nPending := none, tc := tc, tl := tl, tPending := none }

/-- Enable on on a DISABLED line at tick `now` (R112). -/
def Line.start (l : Line) (now : Tick) : Line :=
  { l.disable with state := .searching, enable := true, silence := now }

/-- A changed sense on an enabled line (R112). -/
def Line.setSense (l : Line) (sense : Sense) : Line :=
  if l.sense = sense then l else { l with sense := sense, reference := none, recent := [] }

/-- n on an enabled line (R112): the current n leaves none pending. -/
def Line.setN (l : Line) (n : Nat) : Line := { l with nPending := if n = l.n then none else some n }

/-- Tc and Tl on an enabled line (R112): the current pair leaves none pending (assumption log 9). -/
def Line.setTimeouts (l : Line) (tc tl : Nat) : Line :=
  { l with tPending := if tc = l.tc ∧ tl = l.tl then none else some (tc, tl) }

/-- The settings of a TRANSPORT SETUP, judged against the line as it stands (R112). -/
def Line.setup (l : Line) (now : Tick) (enable : Bool) (sense : Sense) (n tc tl : Nat) : Line :=
  if l.enable then
    if enable then ((l.setSense sense).setN n).setTimeouts tc tl
    else l.disable.settings sense n tc tl
  else if enable then (l.settings sense n tc tl).start now
  else l.settings sense n tc tl

/-- The absence flags of the report (R185). -/
def Line.absence (l : Line) : Nat :=
  (if l.reference.isNone then 1 else 0) + (if l.nPending.isNone then 2 else 0) + (if l.tPending.isNone then 4 else 0)

/-- The report of a TRANSPORT SETUP (R111, R185). -/
def State.lineReport (s : State) (k : LineId) : List Byte :=
  let l := s.line k
  [0x20#8, natByte k.val, l.state.byte] ++ beBytes 3 l.ps ++ beBytes 3 ((l.reference.map BitVec.toNat).getD 0) ++
  beBytes 3 l.silence.toNat ++ beBytes 3 s.tick.toNat ++
  [natByte l.recent.length, natByte l.n, natByte (l.nPending.getD 0), natByte l.tc,
    natByte ((l.tPending.map (·.1)).getD 0), natByte l.tl, natByte ((l.tPending.map (·.2)).getD 0), natByte l.absence]

def State.transportSetup (s : State) (p : Port) (tag : Half) (lane : Byte) (a : TransportArgs) : State :=
  match lineOf a.line with
  | none => s.refuse p tag lane .range 0x20#8 23
  | some k =>
    if a.report = 0#8 then
      match onOff a.enable, senseOf a.sense with
      | some enable, some sense =>
        let (tc, tl) := clampTimeouts a.tc.toNat a.tl.toNat
        let t := s.setLine k ((s.line k).setup s.tick enable sense a.n.toNat tc tl)
        t.answer p tag lane (if tc = a.tc.toNat ∧ tl = a.tl.toNat then .done else .clamped) (t.lineReport k)
      | _, _ => s.refuse p tag lane .range 0x20#8 23
    else s.answer p tag lane .done (s.lineReport k)

/-- TRANSPORT_SETUP (R111, R112). -/
def execTransportSetup (p : Port) (tag : Half) (lane : Byte) (a : TransportArgs) (s : State) :
    Host.Outcome State Fault Refusal :=
  s.take p (.whole tag lane (.transportSetup a)) (·.transportSetup p tag lane a)

end Sys2Proof.Machine
end

