-- ==== Sys2Proof/Machine/Dispatch.lean ====
section
/-! DEFINITION. One arm per command: each row of the table has its meaning. -/

namespace Sys2Proof.Machine
open Sys2Proof

def exec (i : Instr) (s : State) : Host.Outcome State Fault Refusal :=
  match i with
  | .requestFrame p bytes => Sys2Proof.Machine.execRequestFrame p bytes s
  | .samplesFrame p bytes => Sys2Proof.Machine.execSamplesFrame p bytes s
  | .laneOpen p tag lane a => Sys2Proof.Machine.execLaneOpen p tag lane a s
  | .laneClose p tag lane => Sys2Proof.Machine.execLaneClose p tag lane s
  | .laneDrain p tag lane => Sys2Proof.Machine.execLaneDrain p tag lane s
  | .laneStatus p tag lane => Sys2Proof.Machine.execLaneStatus p tag lane s
  | .editVeto p tag lane a => Sys2Proof.Machine.execEditVeto p tag lane a s
  | .editRestore p tag lane a => Sys2Proof.Machine.execEditRestore p tag lane a s
  | .editForce p tag lane a => Sys2Proof.Machine.execEditForce p tag lane a s
  | .editSplice p tag lane a => Sys2Proof.Machine.execEditSplice p tag lane a s
  | .reserve p tag lane pos => Sys2Proof.Machine.execReserve p tag lane pos s
  | .cursorSet p tag lane pos => Sys2Proof.Machine.execCursorSet p tag lane pos s
  | .listRead p tag lane n => Sys2Proof.Machine.execListRead p tag lane n s
  | .sync p tag lane => Sys2Proof.Machine.execSync p tag lane s
  | .transportSetup p tag lane a => Sys2Proof.Machine.execTransportSetup p tag lane a s
  | .profileWrite p tag lane slot r => Sys2Proof.Machine.execProfileWrite p tag lane slot r s
  | .profileRead p tag lane form which => Sys2Proof.Machine.execProfileRead p tag lane form which s
  | .refresh p tag lane slot => Sys2Proof.Machine.execRefresh p tag lane slot s
  | .portSetup p tag lane width order delivery => Sys2Proof.Machine.execPortSetup p tag lane width order delivery s
  | .unitReset p tag lane => Sys2Proof.Machine.execUnitReset p tag lane s
  | .noticeMask p tag lane masks => Sys2Proof.Machine.execNoticeMask p tag lane masks s
  | .condition p tag lane form which => Sys2Proof.Machine.execCondition p tag lane form which s
  | .identify p tag lane => Sys2Proof.Machine.execIdentify p tag lane s
  | .malformedEntry p tag lane => Sys2Proof.Machine.execMalformedEntry p tag lane s
  | .unknownEntry p tag lane => Sys2Proof.Machine.execUnknownEntry p tag lane s
  | .linkDown p => Sys2Proof.Machine.execLinkDown p s
  | .linkUp p => Sys2Proof.Machine.execLinkUp p s
  | .resetPin => Sys2Proof.Machine.execResetPin s
  | .release p => Sys2Proof.Machine.execRelease p s
  | .logFrameTaken p => Sys2Proof.Machine.execLogFrameTaken p s
  | .responseTaken p => Sys2Proof.Machine.execResponseTaken p s
  | .noticeTaken p => Sys2Proof.Machine.execNoticeTaken p s
  | .flowFrameTaken p => Sys2Proof.Machine.execFlowFrameTaken p s
  | .renderStart => Sys2Proof.Machine.execRenderStart s
  | .renderCompletion => Sys2Proof.Machine.execRenderCompletion s
  | .syncAnswer lane => Sys2Proof.Machine.execSyncAnswer lane s
  | .analysePosition lane => Sys2Proof.Machine.execAnalysePosition lane s
  | .perforationEdge k t => Sys2Proof.Machine.execPerforationEdge k t s
  | .coastTimeout k t => Sys2Proof.Machine.execCoastTimeout k t s
  | .lostTimeout k t => Sys2Proof.Machine.execLostTimeout k t s
  | .searchTimeout k t => Sys2Proof.Machine.execSearchTimeout k t s
  | .go lane => Sys2Proof.Machine.execGo lane s
  | .landingPlacement lane => Sys2Proof.Machine.execLandingPlacement lane s
  | .finalBlock lane => Sys2Proof.Machine.execFinalBlock lane s
  | .drainAnalysisFinish lane => Sys2Proof.Machine.execDrainAnalysisFinish lane s
  | .drainCompletion lane => Sys2Proof.Machine.execDrainCompletion lane s
  | .retiringDiscard lane => Sys2Proof.Machine.execRetiringDiscard lane s
  | .filterSample k t level => Sys2Proof.Machine.execFilterSample k t level s

end Sys2Proof.Machine
end

