-- ==== Sys2Proof/Safety.lean ====
section
/-! DEFINITION. What a safe run keeps, and the words the statements use: when a command's event is due, what taking
an entry and answering it leave, and the invariants of the Sample Store, the profiles, the ports and the lines. -/

namespace Sys2Proof.Machine
open Sys2Proof

/-! ### When a command's event is due -/

/-- The port and queue entry a request command takes (R158). An EDIT whose action is not its row's takes none. -/
def entryTaken : Instr → Option (Port × Entry)
  | .laneOpen p tag lane a => some (p, .whole tag lane (.laneOpen a))
  | .laneClose p tag lane => some (p, .whole tag lane .laneClose)
  | .laneDrain p tag lane => some (p, .whole tag lane .laneDrain)
  | .laneStatus p tag lane => some (p, .whole tag lane .laneStatus)
  | .editVeto p tag lane a => if actionOfVetoRow a.action then some (p, .whole tag lane (.edit a)) else none
  | .editRestore p tag lane a => if a.action == actionRestore then some (p, .whole tag lane (.edit a)) else none
  | .editForce p tag lane a => if a.action == actionForce then some (p, .whole tag lane (.edit a)) else none
  | .editSplice p tag lane a => if a.action == actionSplice then some (p, .whole tag lane (.edit a)) else none
  | .reserve p tag lane pos => some (p, .whole tag lane (.reserve pos))
  | .cursorSet p tag lane pos => some (p, .whole tag lane (.cursorSet pos))
  | .listRead p tag lane n => some (p, .whole tag lane (.listRead n))
  | .sync p tag lane => some (p, .whole tag lane .sync)
  | .transportSetup p tag lane a => some (p, .whole tag lane (.transportSetup a))
  | .profileWrite p tag lane slot r => some (p, .whole tag lane (.profileWrite slot r))
  | .profileRead p tag lane form which => some (p, .whole tag lane (.profileRead form which))
  | .refresh p tag lane slot => some (p, .whole tag lane (.refresh slot))
  | .portSetup p tag lane width order delivery => some (p, .whole tag lane (.portSetup width order delivery))
  | .unitReset p tag lane => some (p, .whole tag lane .unitReset)
  | .noticeMask p tag lane masks => some (p, .whole tag lane (.noticeMask masks))
  | .condition p tag lane form which => some (p, .whole tag lane (.condition form which))
  | .identify p tag lane => some (p, .whole tag lane .identify)
  | .malformedEntry p tag lane => some (p, .malformed tag lane)
  | .unknownEntry p tag lane => some (p, .unknown tag lane)
  | .requestFrame _ _ => none
  | .samplesFrame _ _ => none
  | .linkDown _ => none
  | .linkUp _ => none
  | .resetPin => none
  | .release _ => none
  | .logFrameTaken _ => none
  | .responseTaken _ => none
  | .noticeTaken _ => none
  | .flowFrameTaken _ => none
  | .renderStart => none
  | .renderCompletion => none
  | .syncAnswer _ => none
  | .analysePosition _ => none
  | .perforationEdge _ _ => none
  | .coastTimeout _ _ => none
  | .lostTimeout _ _ => none
  | .searchTimeout _ _ => none
  | .go _ => none
  | .landingPlacement _ => none
  | .finalBlock _ => none
  | .drainAnalysisFinish _ => none
  | .drainCompletion _ => none
  | .retiringDiscard _ => none
  | .filterSample _ _ _ => none

/-- Port `p` takes entry `e` next: its link is UP, it has no request in progress, and `e` is the oldest entry of its
queue, with `rest` behind it (R158). -/
def State.offers (s : State) (p : Port) (e : Entry) (rest : List Entry) : Prop :=
  (s.port p).link = .up ∧ (s.port p).inProgress = none ∧ (s.port p).queue = e :: rest

/-- Port `p` cannot take entry `e` now, neither from its queue nor as an arrival to an empty one. -/
def State.cannotTake (s : State) (p : Port) (e : Entry) : Prop :=
  (s.port p).link = .down ∨ (s.port p).inProgress.isSome ∨ ∃ x t, (s.port p).queue = x :: t ∧ x ≠ e

/-- The condition of an event that is not the taking of a request. An event of a line names its own tick, and the
counter runs on to it whatever is due there. -/
def State.due (s : State) : Instr → Prop
  | .requestFrame p _ => (s.port p).link = .up
  | .samplesFrame p _ => (s.port p).link = .up
  | .linkDown p => (s.port p).link = .up
  | .linkUp p => (s.port p).link = .down
  | .release p => ∃ L, s.chosen p = some (.restored L)
  | .logFrameTaken p => ∃ L, s.chosen p = some (.log L)
  | .responseTaken p => ∃ r, s.chosen p = some (.response r)
  | .noticeTaken p => ∃ i e, s.chosen p = some (.notice i e)
  | .flowFrameTaken p => ∃ e, s.chosen p = some (.flow e)
  | .renderStart => s.engine.inFlight = none ∧ ∃ L j, (s.lane L).nextBlock = some j
  | .renderCompletion => s.engine.inFlight.isSome
  | .syncAnswer L => ∃ p, ∃ k ∈ (s.port p).parked, k.syncReady L (s.lane L)
  | .analysePosition L => (s.lane L).isOpen ∧ (s.lane L).analysis < (s.lane L).fill
  | .go L => (s.lane L).goDue
  | .landingPlacement L => (s.lane L).landingDue
  | .finalBlock L => (s.lane L).finalDue
  | .drainAnalysisFinish L => (s.lane L).finishDue
  | .drainCompletion L => (s.lane L).drainDone
  | .retiringDiscard L => ∃ w, (s.lane L).retiring = some w ∧ s.carried L w.generation = false
  | .resetPin => True
  | .perforationEdge _ _ => True
  | .coastTimeout _ _ => True
  | .lostTimeout _ _ => True
  | .searchTimeout _ _ => True
  | .filterSample _ _ _ => True
  | .laneOpen _ _ _ _ => True
  | .laneClose _ _ _ => True
  | .laneDrain _ _ _ => True
  | .laneStatus _ _ _ => True
  | .editVeto _ _ _ _ => True
  | .editRestore _ _ _ _ => True
  | .editForce _ _ _ _ => True
  | .editSplice _ _ _ _ => True
  | .reserve _ _ _ _ => True
  | .cursorSet _ _ _ _ => True
  | .listRead _ _ _ _ => True
  | .sync _ _ _ => True
  | .transportSetup _ _ _ _ => True
  | .profileWrite _ _ _ _ _ => True
  | .profileRead _ _ _ _ _ => True
  | .refresh _ _ _ _ => True
  | .portSetup _ _ _ _ _ _ => True
  | .unitReset _ _ _ => True
  | .noticeMask _ _ _ _ => True
  | .condition _ _ _ _ _ => True
  | .identify _ _ _ => True
  | .malformedEntry _ _ _ => True
  | .unknownEntry _ _ _ => True

/-- A SAMPLES frame that names lane `L` arrives on port `p` and passes every check of R155 and R156. -/
def State.hearsSamples (s : State) (p : Port) (bytes : List Byte) (L : LaneId) : Prop :=
  (s.port p).link = .up ∧ 12 ≤ bytes.length ∧ frameCrcOk bytes = true ∧ byteAt bytes 0 = kindSamples ∧
  fieldAt bytes 6 2 = bytes.length - 12 ∧ samplesLengthOk (s.port p).width (framePayload bytes) = true ∧
  (byteAt bytes 1).toNat = L.val

/-- The settings of a LANE OPEN that checks 3 to 9 of R2 refuse: a code, a ring size, a reserve or a slot outside
what they allow. -/
def openRefused (a : LaneOpenArgs) : Prop :=
  1 < a.source.toNat ∨ 1 < a.sink.toNat ∨ 1 < a.rate.toNat ∨ a.ringSize.toNat < 8 ∨ 64 < a.ringSize.toNat ∨
  a.ringSize.toNat % 8 ≠ 0 ∨ 1024 < a.reserve.toNat ∨ 31 < a.slot.toNat ∨ (a.line ≠ 0xFF#8 ∧ 3 < a.line.toNat) ∨
  (a.width ≠ 16#8 ∧ a.width ≠ 24#8) ∨ 1 < a.rounding.toNat ∨ 1 < a.log.toNat

/-- What a change of the pool may do to a lane it does not otherwise reach: its low flag and its UNLISTED arming
(R44, R58). -/
def Lane.sameButPoolFlags (l m : Lane) : Prop := m = { l with low := m.low, armed := m.armed }

/-- The reservations of a port that an event leaves: `lost` says which are lost (R81, R82). -/
def Reservation.kept (r : Option Reservation) (lost : Reservation → Bool) : Option Reservation :=
  r.filter fun v => !lost v

/-- The lane takes the next `n` positions into the FILLING block at its fill point, which they do not complete:
it is open, not held, its landing buffer and its current piece are empty, and its fill point lies where the ring
says. -/
def Lane.takesWithinBlock (l : Lane) (n : Nat) : Prop :=
  l.state = .active ∧ l.held = false ∧ l.landing = [] ∧ l.piece = none ∧ l.gapStop = none ∧ l.start ≤ l.fill ∧
  l.final = none ∧ l.inRing (l.ord l.fill) = true ∧ (l.block (l.ord l.fill)).state = .filling ∧
  (l.fill - l.start) % 256 + n < 256 ∧ l.fill + n ≤ 4294967296

/-- The ring as LANE OPEN makes it: at least eight slots, all different, and a ring entry for each (R2, R3, R10). -/
def Lane.ringAsOpened (l : Lane) : Prop := 8 ≤ l.ring.length ∧ l.ring.Nodup ∧ l.blocks.length = l.ring.length

/-! ### Taking and answering -/

/-- One event later, with the queue of port `p` shortened to `rest` and nothing else changed. -/
def State.took (s : State) (p : Port) (rest : List Entry) : State :=
  ({ s with events := s.events + 1 } : State).setPort p { s.port p with queue := rest }

/-- The RESPONSE joins the answer list of port `p` and its request is in progress; nothing else changes. -/
def State.replied (s : State) (p : Port) (tag : Half) (lane : Byte) (st : Status) (payload : List Byte) : State :=
  s.setPort p
    { s.port p with
      inProgress := some tag
      answers := (s.port p).answers ++ [{ tag := tag, lane := lane, status := st, payload := payload, ofParked := false }] }

/-- Nothing of `t` outside the ports' notice entries differs from `s`. -/
def State.sameButNotices (s t : State) : Prop :=
  t = { s with
    portA := { s.portA with entries := t.portA.entries }
    portB := { s.portB with entries := t.portB.entries } }

/-- One occurrence of a notice folded into the entry of its category and of lane `who`, or of the unit, on port `p`
(R175): the entry after it. -/
def State.foldedEntry (s : State) (p : Port) (code : NoticeCode) (who : Option LaneId) (pos detail : Nat) :
    Option NoticeEntry :=
  match (s.port p).entries[(entryIndex code.category who).val] with
  | none => some { code := code, count := 1, pos := pos, detail := detail, order := s.events }
  | some e => some { code := code, count := min (e.count + 1) 255, pos := pos, detail := detail, order := e.order }

/-! ### Invariants -/

/-- The Sample Store's buffers are in the one kept form. -/
def State.storeWf (s : State) : Prop := s.store.wf = true

/-- A step completes. -/
def State.completes (s : State) : Prop := ∃ t, step s = .next t

/-- Every numeric field in its range, and the two orderings (R143). -/
def Profile.inRange (p : Profile) : Prop :=
  8 ≤ p.t ∧ p.t ≤ 255 ∧ 1 ≤ p.g ∧ p.g ≤ 8 ∧ 8 ≤ p.lmax ∧ p.lmax ≤ 96 ∧ p.emin ≤ 65535 ∧ p.ls ≤ 511 ∧
  1000 ≤ p.f ∧ p.f ≤ 20000 ∧ 1 ≤ p.d ∧ p.d ≤ 8 ∧ p.h ≤ 8 ∧ 4 ≤ p.mu ∧ p.mu ≤ 15 ∧
  (∀ j : Fin 12, p.levels[j.val] ≤ 8388607) ∧ (∀ i j : Fin 12, i ≤ j → p.levels[i.val] ≤ p.levels[j.val]) ∧
  (∀ j : Fin 12, 1 ≤ p.alphas[j.val] ∧ p.alphas[j.val] ≤ 32768) ∧
  p.g3 ≤ 65535 ∧ p.g1 ≤ p.g2 ∧ p.g2 ≤ p.g3

/-- An internal sample: a signed 24-bit integer (00_scope, Conventions). -/
def isSample (x : Int) : Prop := -8388608 ≤ x ∧ x ≤ 8388607

/-- The filter fields of a checkpoint are in the ranges of R103. -/
def Filter.inRange (w : Filter) : Prop :=
  w.phase < 4294967296 ∧ (∀ i : Fin 8, -2147483648 ≤ w.a[i.val] ∧ w.a[i.val] ≤ 2147483647) ∧
  (∀ i : Fin 8, -2147483648 ≤ w.b[i.val] ∧ w.b[i.val] ≤ 2147483647) ∧ isSample w.y ∧ 0 ≤ w.v ∧ w.v ≤ 134217728

/-- Every library record and every working copy is in range and ordered. -/
def State.profilesInRange (s : State) : Prop :=
  (∀ i : Fin 32, s.library[i.val].inRange) ∧
  ∀ L : LaneId, (∀ w, (s.lane L).active = some w → w.profile.inRange) ∧
    ∀ w, (s.lane L).retiring = some w → w.profile.inRange

/-- The limits of a port's queue and lists (R157, R159, R161, R163, R172, R174), and the values R165 gives a port
whose link is DOWN. -/
def PortRec.bounded (q : PortRec) : Prop :=
  q.queue.length ≤ 8 ∧ q.parkedCount ≤ 4 ∧ q.answers.length ≤ 5 ∧
  (q.answers.filter fun r => !r.ofParked).length = (if q.inProgress = none then 0 else 1) ∧
  q.flow.length ≤ 6 ∧ (q.flow.map FlowEntry.lane).Nodup ∧
  q.crcError ≤ 4294967295 ∧ q.malformed ≤ 4294967295 ∧ q.stray ≤ 4294967295 ∧ q.dropped ≤ 4294967295 ∧
  (∀ i : Fin 42, ∀ e, q.entries[i.val] = some e → 1 ≤ e.count ∧ e.count ≤ 255 ∧ e.code.category.val = i.val / 7) ∧
  (q.link = .down →
    q.width = .w24 ∧ q.order = .little ∧ q.delivery = true ∧ q.queue = [] ∧ q.inProgress = none ∧ q.parked = [] ∧
    q.answers = [] ∧ q.flow = [] ∧ q.cursor = ⟨0, 0⟩ ∧ q.reservation = none ∧ ∀ c : Fin 6, q.masks[c.val] = false)

/-- The ranges of a line record (R110), and what its state says of it. -/
def Line.inRange (l : Line) : Prop :=
  (l.state = .disabled ↔ l.enable = false) ∧
  l.n ≤ 255 ∧ (∀ n, l.nPending = some n → n ≤ 255) ∧
  1 ≤ l.tc ∧ l.tc ≤ 254 ∧ l.tc < l.tl ∧ l.tl ≤ 255 ∧
  (∀ c t, l.tPending = some (c, t) → 1 ≤ c ∧ c ≤ 254 ∧ c < t ∧ t ≤ 255) ∧
  l.prescaler ≤ l.n ∧ l.run ≤ 2 ∧ l.recent.length ≤ 2 ∧
  (l.state = .disabled → l.prescaler = 0 ∧ l.settled = none ∧ l.run = 0 ∧ l.reference = none ∧ l.recent = []) ∧
  (if l.state = .tracking ∨ l.state = .coast then 4096 ≤ l.ps ∧ l.ps < 16777216 else l.ps = 0)

end Sys2Proof.Machine
end

