-- ==== Sys2Proof/Certificates/Slice0/Obligations.lean ====
section
/-! DEFINITION. The statements for the provers. The words they share stand in Sys2Proof/Safety.lean: `offers`, `took`
and `replied` for the taking of a request, `due` for the other events, and the invariants. Each docstring names the
rules a statement formalises, and says where it rests on a choice of the model's own. -/

open Sys2Proof Sys2Proof.Machine

/-! ### The step and the queue of commands -/

/-- A step with a command at the front of the queue is that command's meaning on the state with the queue's rest. -/
def Obligations.StepRunsTheFrontCommand : Prop :=
  ∀ (c : Instr) (s : State), step { s with pending := c :: s.pending } = exec c s

/-- The model's own choices (assumption log 3 and 4). A command whose event cannot take place now changes nothing: a
request's event cannot when its port cannot take the entry, and an EDIT command whose action is not its row's names no
entry. On an empty queue a request command stands for the arrival of its entry, which counts a malformed one (R157),
followed by its taking. -/
def Obligations.CommandsOutOfTurn : Prop :=
  (∀ (c : Instr) (s : State),
     ((∃ p e, entryTaken c = some (p, e) ∧ s.cannotTake p e) ∨
       (∃ p tag lane a, (c = .editVeto p tag lane a ∨ c = .editRestore p tag lane a ∨ c = .editForce p tag lane a ∨
         c = .editSplice p tag lane a) ∧ entryTaken c = none) ∨
       ¬ s.due c) →
     exec c s = .next s) ∧
  (∀ (c : Instr) (s : State) (p : Port) (e : Entry), entryTaken c = some (p, e) → (s.port p).link = .up →
     (s.port p).inProgress = none → (s.port p).queue = [] →
     exec c s = exec c (s.setPort p
       { s.port p with
         queue := [e]
         malformed := match e with
           | .malformed _ _ => min ((s.port p).malformed + 1) 4294967295
           | .whole _ _ _ => (s.port p).malformed
           | .unknown _ _ => (s.port p).malformed }))

/-- R109, and the model's choice (assumption log 2): a step on an empty queue is one tick. The counter rises by one
and wraps; nothing but the lines, the lanes' counters and the notice entries can change; and where no line has a
sample that would change it or a timeout due at the present tick, each enabled line's prescaler counts on modulo
n + 1 and nothing else changes. -/
def Obligations.EmptyQueueStepIsOneTick : Prop :=
  ∀ s : State, s.pending = [] →
    (∃ t : State, step s = .next t ∧ t.tick = s.tick + 1 ∧ t.store = s.store ∧ t.engine = s.engine ∧ t.library = s.library ∧
      t.pending = [] ∧
      (∀ p, t.port p = { s.port p with entries := (t.port p).entries }) ∧
      (∀ L, t.lane L = { s.lane L with counters := (t.lane L).counters }) ∧
      ∀ k, (s.line k).enable = false → t.line k = s.line k) ∧
    ((∀ k, (s.line k).inRange ∧
        ((s.line k).enable = true →
          ¬((s.line k).sampleDue = true ∧ (s.line k).sampleMatters = true) ∧ (s.line k).deadline ≠ some s.tick)) →
      step s = .next { s with
        tick := s.tick + 1
        lines := mapVec (fun l =>
          if l.enable then { l with prescaler := (l.prescaler + 1) % (l.n + 1), sampled := false } else l) s.lines })

/-! ### Frames (Chapter 9, 9.1) -/

/-- R154, R155, R157, R184, 11.6: the payload a station forms for a request has the length the table gives its code, and
reads back as that request, every field at every value. Its REQUEST frame, header, payload and CRC, passes every check of
the part and joins a queue with room as the whole request, tag and lane unchanged, whatever its flags; nothing else
changes. -/
def Obligations.FormedRequestFrameJoinsTheQueue : Prop :=
  (∀ r : Request, requestLength (requestCode r) = some (requestPayload r).length ∧
     readRequest (requestCode r) (requestPayload r) = some r) ∧
  (∀ (s : State) (p : Port) (lane flags : Byte) (tag : Half) (r : Request), (s.port p).link = .up →
     (s.port p).queue.length < 8 →
     exec (.requestFrame p (requestFrameOf lane flags tag r)) s =
       .next (({ s with events := s.events + 1 } : State).setPort p
         { s.port p with queue := (s.port p).queue ++ [.whole tag lane r] }))

/-- R157: a REQUEST frame that passes the first three checks of R155. To a full queue it is dropped, counted as
REQUEST DROPPED and raised toward its port alone with its tag; otherwise it joins the queue as a malformed, an
unknown or a whole entry, a malformed one counted. -/
def Obligations.RequestFrameArrival : Prop :=
  ∀ (s : State) (p : Port) (bytes : List Byte), (s.port p).link = .up → 12 ≤ bytes.length →
    frameCrcOk bytes = true → byteAt bytes 0 = 0x01#8 →
    let t : State := { s with events := s.events + 1 }
    let q := s.port p
    let tag : Half := BitVec.ofNat 16 (fieldAt bytes 4 2)
    let lane := byteAt bytes 1
    let code := byteAt bytes 3
    let payload := (bytes.drop 8).take (bytes.length - 12)
    let joins := fun (e : Entry) (malformed : Nat) =>
      exec (.requestFrame p bytes) s = .next (t.setPort p { q with queue := q.queue ++ [e], malformed := malformed })
    let counted := min (q.malformed + 1) 4294967295
    (8 ≤ q.queue.length →
      exec (.requestFrame p bytes) s = .next (t.setPort p
        { q with
          dropped := min (q.dropped + 1) 4294967295
          entries := q.entries.set 41 (t.foldedEntry p .requestDropped none (fieldAt bytes 4 2) 0) })) ∧
    (q.queue.length < 8 →
      (fieldAt bytes 6 2 ≠ bytes.length - 12 → joins (.malformed tag lane) counted) ∧
      (fieldAt bytes 6 2 = bytes.length - 12 →
        (requestLength code = none → joins (.unknown tag lane) q.malformed) ∧
        ∀ n, requestLength code = some n →
          (payload.length ≠ n → joins (.malformed tag lane) counted) ∧
          (payload.length = n → ∃ r, readRequest code payload = some r ∧ joins (.whole tag lane r) q.malformed)))

/-- R155, R156, R172: a frame that fails a check of R155, other than a REQUEST that fails check 4, is discarded, and
one counter of its port is all that changes; so is a SAMPLES frame whose length or lane field fails R156. -/
def Obligations.DiscardedFrameOnlyCounts : Prop :=
  ∀ (s : State) (p : Port) (bytes : List Byte) (c : Instr), (c = .requestFrame p bytes ∨ c = .samplesFrame p bytes) →
    (s.port p).link = .up →
    let t : State := { s with events := s.events + 1 }
    let q := s.port p
    let malformed := exec c s = .next (t.setPort p { q with malformed := min (q.malformed + 1) 4294967295 })
    let payload := (bytes.drop 8).take (bytes.length - 12)
    let count := if byteAt payload 4 = 0#8 then 256 else (byteAt payload 4).toNat
    let size := if q.width = .w16 then 2 else 3
    (bytes.length < 12 → malformed) ∧
    (12 ≤ bytes.length →
      (crc32 (bytes.take (bytes.length - 4)) ≠ fieldAt bytes (bytes.length - 4) 4 →
        exec c s = .next (t.setPort p { q with crcError := min (q.crcError + 1) 4294967295 })) ∧
      (crc32 (bytes.take (bytes.length - 4)) = fieldAt bytes (bytes.length - 4) 4 →
        (byteAt bytes 0 ≠ 0x01#8 → byteAt bytes 0 ≠ 0x02#8 → malformed) ∧
        (byteAt bytes 0 = 0x02#8 →
          (fieldAt bytes 6 2 ≠ bytes.length - 12 → malformed) ∧
          (fieldAt bytes 6 2 = bytes.length - 12 →
            (payload.length < 5 ∨ payload.length ≠ 5 + count * size → malformed) ∧
            (5 ≤ payload.length → payload.length = 5 + count * size → 5 < (byteAt bytes 1).toNat →
              exec c s = .next (t.setPort p { q with stray := min (q.stray + 1) 4294967295 }))))))

/-- R13, its first four rows, with R172 and R173: a frame that names a lane that is CLOSED, or whose source is the
other port, is dropped as STRAY; for a DRAINING lane, as LATE; for a held lane whose after-HOLD count is 4, as
OVERRUN with its notice toward both ports. Nothing else changes, but that the engine, if IDLE, may grant (R91). -/
def Obligations.SamplesFrameDropped : Prop :=
  ∀ (s : State) (p : Port) (bytes : List Byte) (L : LaneId), s.hearsSamples p bytes L →
    let t : State := { s with events := s.events + 1 }
    let l := s.lane L
    let counted := fun (c : Ctr) => t.setLane L
      { l with counters := l.counters.set c.index.val (min (l.counters[c.index.val] + 1) 4294967295) }
    (l.state = .closed ∨ l.source ≠ p →
      exec (.samplesFrame p bytes) s = .next
        (t.setPort p { s.port p with stray := min ((s.port p).stray + 1) 4294967295 }).grant) ∧
    (l.source = p → l.state = .draining → exec (.samplesFrame p bytes) s = .next (counted .late).grant) ∧
    (l.source = p → l.state = .active → l.held = true → l.afterHold = 4 →
      ∃ u : State, exec (.samplesFrame p bytes) s = .next u.grant ∧ (counted .overrun).sameButNotices u ∧
        ∀ q, (u.port q).entries = (s.port q).entries.set (entryIndex 3 (some L)).val
          (t.foldedEntry q .overrun (some L) (fieldAt bytes 8 4) 0))

/-- R13, R14, R15, R17, R9, R16, R24: a frame with its BAD flag clear. One that begins at the fill point and does not
complete the block places each of its samples at its position as the raw value with the missing flag clear; the fill point
and the count of samples placed rise by their number, every other address keeps what it held, and the rest of the lane, the
other lanes and both ports stand. One wholly before the fill point leaves nothing to place and is counted DUPLICATE, whatever
its BAD flag; one that begins before it loses those samples, is counted DUPLICATE, and the rest is placed. One that begins
beyond the fill point has the positions between placed as missing, raw value 0: with the list empty and a record to be had,
one GAP record covers them, closed by the frame's first sample. One that runs over a block's end into a FREE slot makes that
slot FILLING and sends no HOLD. A frame for a held lane that cannot place it joins the landing buffer and raises the
after-HOLD count. After each the engine, if IDLE, may grant. -/
def Obligations.SamplesArePlacedAtTheFillPoint : Prop :=
  (∀ (s : State) (p : Port) (bytes : List Byte) (L : LaneId), s.storeWf → s.hearsSamples p bytes L →
     let l := s.lane L
     let payload := framePayload bytes
     let n := sampleCount payload
     let xs := decodeWords (s.port p).width (s.port p).order n (payload.drop 5)
     l.source = p → l.takesWithinBlock n → (byteAt bytes 2).getLsbD 0 = false → fieldAt bytes 8 4 = l.fill →
     ∃ t : State, exec (.samplesFrame p bytes) s = .next t.grant ∧
       t.lane L = { l with
         fill := l.fill + n
         counters := l.counters.set 0 (min (l.counters[0] + n) 4294967295) } ∧
       (∀ M, M ≠ L → t.lane M = s.lane M) ∧ (∀ q, t.port q = s.port q) ∧ t.engine = s.engine ∧
       (∀ i x, xs[i]? = some x →
         Cells.read 0 (l.cell (l.fill + i)) t.store.raw = x ∧
         Cells.read false (l.cell (l.fill + i)) t.store.missing = false) ∧
       (∀ a, (∀ i, i < n → a ≠ l.cell (l.fill + i)) →
         Cells.read 0 a t.store.raw = Cells.read 0 a s.store.raw ∧
         Cells.read false a t.store.missing = Cells.read false a s.store.missing) ∧
       t.store.restored = s.store.restored ∧ t.store.checkpoints = s.store.checkpoints) ∧
  (∀ (s : State) (p : Port) (bytes : List Byte) (L : LaneId), s.hearsSamples p bytes L →
     let l := s.lane L
     l.source = p → l.state = .active → l.held = false → l.landing = [] →
     (l.canPlace = true ∨ l.fill = 4294967296) → l.fill ≤ 4294967296 →
     fieldAt bytes 8 4 + sampleCount (framePayload bytes) ≤ l.fill →
     exec (.samplesFrame p bytes) s = .next (({ s with events := s.events + 1 } : State).setLane L
       { l with counters := l.counters.set 11 (min (l.counters[11] + 1) 4294967295) }).grant) ∧
  (∀ (s : State) (p : Port) (bytes : List Byte) (L : LaneId), s.storeWf → s.hearsSamples p bytes L →
     let l := s.lane L
     let payload := framePayload bytes
     let n := sampleCount payload
     let pos := fieldAt bytes 8 4
     let xs := decodeWords (s.port p).width (s.port p).order n (payload.drop 5)
     l.source = p → (byteAt bytes 2).getLsbD 0 = false → pos < l.fill → l.fill < pos + n →
     l.takesWithinBlock (pos + n - l.fill) →
     ∃ t : State, exec (.samplesFrame p bytes) s = .next t.grant ∧
       t.lane L = { l with
         fill := pos + n
         counters := (l.counters.set 0 (min (l.counters[0] + (pos + n - l.fill)) 4294967295)).set 11
           (min (l.counters[11] + 1) 4294967295) } ∧
       (∀ M, M ≠ L → t.lane M = s.lane M) ∧ (∀ q, t.port q = s.port q) ∧ t.engine = s.engine ∧
       (∀ i x, xs[i]? = some x → l.fill ≤ pos + i →
         Cells.read 0 (l.cell (pos + i)) t.store.raw = x ∧
         Cells.read false (l.cell (pos + i)) t.store.missing = false) ∧
       ∀ a, (∀ i, i < n → l.fill ≤ pos + i → a ≠ l.cell (pos + i)) →
         Cells.read 0 a t.store.raw = Cells.read 0 a s.store.raw ∧
         Cells.read false a t.store.missing = Cells.read false a s.store.missing) ∧
  (∀ (s : State) (p : Port) (bytes : List Byte) (L : LaneId), s.storeWf → s.hearsSamples p bytes L →
     let l := s.lane L
     let payload := framePayload bytes
     let n := sampleCount payload
     let pos := fieldAt bytes 8 4
     let xs := decodeWords (s.port p).width (s.port p).order n (payload.drop 5)
     l.source = p → (byteAt bytes 2).getLsbD 0 = false → l.fill < pos → l.takesWithinBlock (pos + n - l.fill) →
     l.list = [] → s.canTake L = true →
     ∃ t : State, exec (.samplesFrame p bytes) s = .next t.grant ∧
       (t.lane L).fill = pos + n ∧ (t.lane L).piece = none ∧
       (∀ x, xs.head? = some x → (t.lane L).list = [{
         start := l.fill
         length := pos - l.fill
         kind := .gap
         origin := .link
         state := .live
         disp := .applied
         ratio := 0
         before := some (({ s with events := s.events + 1 } : State).anchorBefore L l.fill)
         after := some x }]) ∧
       (t.lane L).counters =
         ((l.counters.set 0 (min (l.counters[0] + n) 4294967295)).set 1
           (min (l.counters[1] + (pos - l.fill)) 4294967295)).set 5 (min (l.counters[5] + 1) 4294967295) ∧
       (∀ i, i < pos - l.fill →
         Cells.read 0 (l.cell (l.fill + i)) t.store.raw = 0 ∧
         Cells.read false (l.cell (l.fill + i)) t.store.missing = true) ∧
       (∀ i x, xs[i]? = some x →
         Cells.read 0 (l.cell (pos + i)) t.store.raw = x ∧
         Cells.read false (l.cell (pos + i)) t.store.missing = false) ∧
       ∀ a, (∀ i, i < pos + n - l.fill → a ≠ l.cell (l.fill + i)) →
         Cells.read 0 a t.store.raw = Cells.read 0 a s.store.raw ∧
         Cells.read false a t.store.missing = Cells.read false a s.store.missing) ∧
  (∀ (s : State) (p : Port) (bytes : List Byte) (L : LaneId), s.storeWf → s.hearsSamples p bytes L →
     let l := s.lane L
     let payload := framePayload bytes
     let n := sampleCount payload
     let xs := decodeWords (s.port p).width (s.port p).order n (payload.drop 5)
     let j := l.ord l.fill
     l.source = p → (byteAt bytes 2).getLsbD 0 = false → fieldAt bytes 8 4 = l.fill →
     l.takesWithinBlock 0 → l.ringAsOpened → l.inRing (j + 1) = true → (l.block (j + 1)).state = .free →
     256 ≤ (l.fill - l.start) % 256 + n → l.fill + n < 4294967296 →
     ∃ t : State, exec (.samplesFrame p bytes) s = .next t.grant ∧
       t.lane L = { l with
         fill := l.fill + n
         counters := l.counters.set 0 (min (l.counters[0] + n) 4294967295)
         blocks := (l.setBlock (j + 1) { state := .filling }).blocks } ∧
       (∀ M, M ≠ L → t.lane M = s.lane M) ∧ (∀ q, t.port q = s.port q) ∧ t.engine = s.engine ∧
       (∀ i x, xs[i]? = some x →
         Cells.read 0 (l.cell (l.fill + i)) t.store.raw = x ∧
         Cells.read false (l.cell (l.fill + i)) t.store.missing = false) ∧
       ∀ a, (∀ i, i < n → a ≠ l.cell (l.fill + i)) →
         Cells.read 0 a t.store.raw = Cells.read 0 a s.store.raw ∧
         Cells.read false a t.store.missing = Cells.read false a s.store.missing) ∧
  (∀ (s : State) (p : Port) (bytes : List Byte) (L : LaneId), s.hearsSamples p bytes L →
     let l := s.lane L
     let payload := framePayload bytes
     let n := sampleCount payload
     let pos := fieldAt bytes 8 4
     let xs := decodeWords (s.port p).width (s.port p).order n (payload.drop 5)
     l.source = p → l.state = .active → l.held = true → l.afterHold ≠ 4 →
     (l.landing ≠ [] ∨ (l.canPlace = false ∧ l.fill ≠ 4294967296)) → pos + n ≤ 4294967296 →
     exec (.samplesFrame p bytes) s = .next (({ s with events := s.events + 1 } : State).setLane L
       { l with
         afterHold := l.afterHold + 1
         landing := l.landing ++ [{
           start := pos
           samples := if (byteAt bytes 2).getLsbD 0 then xs.map fun _ => none else xs.map some
           resumed := false }] }).grant)

/-- R15, R18, R163: a frame that begins at the fill point, with its BAD flag clear, and completes the block at the fill point
exactly, while the ring entry for the next block still holds the oldest unreleased block: the lane becomes held with an
after-HOLD count of 0, its landing buffer stays empty, and a HOLD with the new fill point joins the flow list of its source
port in place of any entry of the lane. The rest of the lane stands; the engine, if IDLE, may then grant. -/
def Obligations.HoldIsSentWhenTheRingIsFull : Prop :=
  ∀ (s : State) (p : Port) (bytes : List Byte) (L : LaneId), s.hearsSamples p bytes L →
    let l := s.lane L
    let n := sampleCount (framePayload bytes)
    l.source = p → l.state = .active → l.held = false → l.landing = [] → l.piece = none → l.gapStop = none →
    l.start ≤ l.fill → l.final = none → l.inRing (l.ord l.fill) = true →
    (l.block (l.ord l.fill)).state = .filling → (l.fill - l.start) % 256 + n = 256 → l.fill + n < 4294967296 →
    l.oldest + l.ring.length = l.ord l.fill + 1 → (byteAt bytes 2).getLsbD 0 = false → fieldAt bytes 8 4 = l.fill →
    ∃ t : State, exec (.samplesFrame p bytes) s = .next t.grant ∧
      t.lane L = { l with
        fill := l.fill + n
        held := true
        afterHold := 0
        counters := l.counters.set 0 (min (l.counters[0] + n) 4294967295) } ∧
      (∀ M, M ≠ L → t.lane M = s.lane M) ∧
      t.port p = { s.port p with
        flow := ((s.port p).flow.filter fun e => e.lane != L) ++ [{ lane := L, hold := true, fill := l.fill + n }] } ∧
      t.port (otherPort p) = s.port (otherPort p)

/-- R14, R16, R37, R38, R40 to R44, R52, R181: missing positions of a BAD frame at the fill point. With an empty list and
a record to be had they are placed as missing, raw value 0, and covered by one OPEN GAP record of origin LINK from the first
of them, its before-anchor the raw value before it; the counts of missing positions and of GAP pieces rise. One that follows
the current piece extends it; where the piece has 1,024 positions it becomes LIVE with after-anchor 0, and the position opens
the run's next piece, or, where a valid sample inside the piece has ended its run (log 8), is left outside every piece,
TRUNCATED. One right behind a LIVE APPLIED record reopens it by a backward merge, GAP over all kinds but
SPLICE, and marks what the joined record touches; any other record there leaves it outside every piece, TRUNCATED. One before
a LIVE APPLIED record absorbs it into its new piece; before any other it opens none, TRUNCATED (log 8). With no record to be had a
piece takes the unlisted slot, is counted UNLISTED, tallied in the block of its start, and raised if the lane is armed; with
the slot occupied it is TRUNCATED. A merge's marks: the edit number rises if the joined record touches a block rendered at
least once, and each such block, and one in a first render (log 6), is marked. An unlisted span is written by its line
between the anchors, missing flags kept, and a sample placed after an unlisted piece writes it and empties the slot. -/
def Obligations.MissingPositionsOpenAGapPiece : Prop :=
  (∀ (s : State) (p : Port) (bytes : List Byte) (L : LaneId), s.storeWf → s.hearsSamples p bytes L →
     let l := s.lane L
     let n := sampleCount (framePayload bytes)
     l.source = p → l.takesWithinBlock n → (byteAt bytes 2).getLsbD 0 = true → fieldAt bytes 8 4 = l.fill →
     l.list = [] → s.canTake L = true →
     ∃ t : State, exec (.samplesFrame p bytes) s = .next t.grant ∧
       (t.lane L).fill = l.fill + n ∧
       (t.lane L).list = [{
         start := l.fill
         length := n
         kind := .gap
         origin := .link
         state := .opened
         disp := .applied
         ratio := 0
         before := some (({ s with events := s.events + 1 } : State).anchorBefore L l.fill)
         after := none }] ∧
       (t.lane L).piece = some (.listed l.fill) ∧
       (t.lane L).counters =
         (l.counters.set 1 (min (l.counters[1] + n) 4294967295)).set 5
           (min (l.counters[5] + 1) 4294967295) ∧
       (∀ M, M ≠ L → (t.lane M).list = (s.lane M).list ∧ (t.lane M).counters = (s.lane M).counters) ∧
       (∀ i, i < n →
         Cells.read 0 (l.cell (l.fill + i)) t.store.raw = 0 ∧
         Cells.read false (l.cell (l.fill + i)) t.store.missing = true) ∧
       (∀ a, (∀ i, i < n → a ≠ l.cell (l.fill + i)) →
         Cells.read 0 a t.store.raw = Cells.read 0 a s.store.raw ∧
         Cells.read false a t.store.missing = Cells.read false a s.store.missing) ∧
       t.store.restored = s.store.restored ∧ t.store.checkpoints = s.store.checkpoints) ∧
  (∀ (s : State) (p : Port) (bytes : List Byte) (L : LaneId), s.storeWf → s.hearsSamples p bytes L →
     let l := s.lane L
     let before : State := { s with events := s.events + 1 }
     let m := l.fill
     let missing := min (l.counters[1] + 1) 4294967295
     let truncated := min (l.counters[10] + 1) 4294967295
     let reaches := fun (q : PortRec) (lo hi : Nat) => Reservation.kept q.reservation fun v =>
       v.lane == L && decide (lo ≤ l.lastOf (l.ord v.first)) && decide (v.first ≤ hi)
     l.source = p → (byteAt bytes 2).getLsbD 0 = true → fieldAt bytes 8 4 = m →
     sampleCount (framePayload bytes) = 1 → ({ l with piece := none } : Lane).takesWithinBlock 1 → l.ringAsOpened →
     (∀ r, l.list = [r] → 1 ≤ r.length → r.length < 1024 → r.start + r.length = m →
       (l.piece = some (.listed r.start) → ∃ t : State, exec (.samplesFrame p bytes) s = .next t.grant ∧
         t.lane L = { l with
           fill := m + 1
           list := [{ r with length := r.length + 1 }]
           runEnded := false
           counters := l.counters.set 1 missing } ∧
         ∀ q, t.port q = { s.port q with reservation := reaches (s.port q) r.start m }) ∧
       (l.piece = none → r.state = .live → r.disp = .applied →
         ∃ t : State, exec (.samplesFrame p bytes) s = .next t.grant ∧
           t.lane L = { l with
             fill := m + 1
             list := [{
               start := r.start
               length := r.length + 1
               kind := if r.kind = .splice then .splice else .gap
               origin := if r.kind = .splice ∨ r.kind = .gap then r.origin else .link
               state := .opened
               disp := .applied
               ratio := 0
               before := some (before.anchorBefore L r.start)
               after := none }]
             piece := some (.listed r.start)
             runEnded := false
             counters := l.counters.set 1 missing
             edit := (l.mergeMark r.start m).edit
             blocks := (l.mergeMark r.start m).blocks } ∧
           ∀ q, t.port q = { s.port q with reservation := reaches (s.port q) r.start m }) ∧
       (l.piece = none → ¬(r.state = .live ∧ r.disp = .applied) →
         ∃ t : State, exec (.samplesFrame p bytes) s = .next t.grant ∧
           t.lane L = { l with
             fill := m + 1
             counters := (l.counters.set 1 missing).set 10 truncated } ∧
           ∀ q, t.port q = s.port q)) ∧
     (∀ r, l.list = [r] → r.length = 1024 → r.start + 1024 = m → l.piece = some (.listed r.start) →
       (l.runEnded = false → s.canTake L = true → ∃ t : State, exec (.samplesFrame p bytes) s = .next t.grant ∧
         (t.lane L).fill = m + 1 ∧ (t.lane L).piece = some (.listed m) ∧ (t.lane L).runEnded = false ∧
         (t.lane L).list = [{ r with state := .live, after := some 0 }, {
           start := m
           length := 1
           kind := .gap
           origin := .link
           state := .opened
           disp := .applied
           ratio := 0
           before := some (before.anchorBefore L m)
           after := none }] ∧
         (t.lane L).counters = (l.counters.set 1 missing).set 5 (min (l.counters[5] + 1) 4294967295)) ∧
       (l.runEnded = true → ∃ t : State, exec (.samplesFrame p bytes) s = .next t.grant ∧
         t.lane L = { l with
           fill := m + 1
           list := [{ r with state := .live, after := some 0 }]
           piece := none
           runEnded := false
           counters := (l.counters.set 1 missing).set 10 truncated })) ∧
     (∀ r, l.list = [r] → l.piece = none → r.start = m + 1 → 1 ≤ r.length → r.length < 1024 →
       (r.state = .live → r.disp = .applied → s.canTake L = true →
         ∃ t : State, exec (.samplesFrame p bytes) s = .next t.grant ∧
           (t.lane L).list = [{
             start := m
             length := r.length + 1
             kind := if r.kind = .splice then .splice else .gap
             origin := if r.kind = .splice then r.origin else .link
             state := .opened
             disp := .applied
             ratio := 0
             before := some (before.anchorBefore L m)
             after := none }] ∧
           (t.lane L).piece = some (.listed m) ∧ (t.lane L).edit = (l.mergeMark m r.last).edit ∧
           (t.lane L).blocks = (l.mergeMark m r.last).blocks ∧
           (t.lane L).counters = (l.counters.set 1 missing).set 5 (min (l.counters[5] + 1) 4294967295)) ∧
       (¬(r.state = .live ∧ r.disp = .applied) →
         ∃ t : State, exec (.samplesFrame p bytes) s = .next t.grant ∧
           t.lane L = { l with
             fill := m + 1
             gapStop := some r.start
             counters := (l.counters.set 1 missing).set 10 truncated } ∧
           ∀ q, t.port q = s.port q)) ∧
     (l.list = [] → s.canTake L = false → l.piece = none →
       ((∀ sp, l.span = some sp → sp.form = .listed) →
         ∃ t : State, exec (.samplesFrame p bytes) s = .next t.grant ∧
           t.lane L = { l with
             fill := m + 1
             piece := some (.unlisted m 1)
             runEnded := false
             armed := false
             counters := ((l.counters.set 1 missing).set 5 (min (l.counters[5] + 1) 4294967295)).set 9
               (min (l.counters[9] + 1) 4294967295)
             blocks := (l.setBlock (l.ord m)
               { l.block (l.ord m) with tally := (l.block (l.ord m)).tally + 1 }).blocks } ∧
           ∀ q, t.port q = { s.port q with
             entries := if l.armed then (s.port q).entries.set (entryIndex 2 (some L)).val
                 (before.foldedEntry q .unlisted (some L) m 0)
               else (s.port q).entries }) ∧
       (∀ sp, l.span = some sp → sp.form = .unlisted →
         ∃ t : State, exec (.samplesFrame p bytes) s = .next t.grant ∧
           t.lane L = { l with
             fill := m + 1
             counters := (l.counters.set 1 missing).set 10 truncated } ∧
           ∀ q, t.port q = s.port q))) ∧
  (∀ (l : Lane) (lo hi : Nat), 0 < l.ring.length → l.blocks.length = l.ring.length →
     let within := fun (j : Nat) => l.oldest ≤ j ∧ j < l.oldest + l.ring.length
     let met := fun (j : Nat) => lo ≤ l.lastOf j ∧ l.firstOf j ≤ hi
     let n := (l.mergeMark lo hi).edit
     let lower := fun (m : Option Nat) => some (m.elim n fun x => min x n)
     ((∃ j, within j ∧ met j ∧ (l.block j).rendered = true) → n = min (l.edit + 1) 4294967295) ∧
     ((¬ ∃ j, within j ∧ met j ∧ (l.block j).rendered = true) → n = l.edit) ∧
     l.mergeMark lo hi = { l with edit := n, blocks := (l.mergeMark lo hi).blocks } ∧
     ∀ j, within j →
       let b := l.block j
       (met j → b.rendered = true ∨ b.state = .rendering →
         (l.mergeMark lo hi).block j =
           match b.state with
           | .rendered => { b with state := .dirty, mark := some n }
           | .dirty => { b with mark := lower b.mark }
           | .rendering => { b with touch := lower b.touch }
           | .free => b
           | .filling => b
           | .analysed => b) ∧
       (¬(met j ∧ (b.rendered = true ∨ b.state = .rendering)) → (l.mergeMark lo hi).block j = b)) ∧
  (∀ (s : State) (L : LaneId) (start len : Nat) (b : Int), s.storeWf →
     let l := s.lane L
     let t := s.writeUnlisted L start len b
     l.ringAsOpened → l.start ≤ start → len ≤ 1024 →
     t = { s with store := { s.store with raw := t.store.raw } } ∧
     (∀ i, i < len → Cells.read 0 (l.cell (start + i)) t.store.raw =
       interpolate (s.anchorBefore L start) b len i) ∧
     ∀ a, (∀ i, i < len → a ≠ l.cell (start + i)) → Cells.read 0 a t.store.raw = Cells.read 0 a s.store.raw) ∧
  (∀ (s : State) (p : Port) (bytes : List Byte) (L : LaneId) (start len : Nat), s.storeWf → s.hearsSamples p bytes L →
     let l := s.lane L
     let payload := framePayload bytes
     let xs := decodeWords (s.port p).width (s.port p).order 1 (payload.drop 5)
     l.source = p → (byteAt bytes 2).getLsbD 0 = false → fieldAt bytes 8 4 = l.fill → sampleCount payload = 1 →
     ({ l with piece := none } : Lane).takesWithinBlock 1 → l.ringAsOpened → l.piece = some (.unlisted start len) →
     l.start ≤ start → 1 ≤ len → len ≤ 1024 → start + len = l.fill →
     ∃ t : State, exec (.samplesFrame p bytes) s = .next t.grant ∧
       t.lane L = { l with
         fill := l.fill + 1
         piece := none
         runEnded := false
         counters := l.counters.set 0 (min (l.counters[0] + 1) 4294967295) } ∧
       ∀ x, xs = [x] →
         Cells.read 0 (l.cell l.fill) t.store.raw = x ∧
         (∀ i, i < len → Cells.read 0 (l.cell (start + i)) t.store.raw =
           interpolate (({ s with events := s.events + 1 } : State).anchorBefore L start) x len i) ∧
         (∀ a, (∀ i, i ≤ len → a ≠ l.cell (start + i)) →
           Cells.read 0 a t.store.raw = Cells.read 0 a s.store.raw) ∧
         ∀ a, a ≠ l.cell l.fill → Cells.read false a t.store.missing = Cells.read false a s.store.missing)

/-! ### Requests of the ports (Chapters 9 and 10) -/

/-- R158, R183, R185: a malformed entry is answered MALFORMED and an unknown one UNKNOWN, with no payload; IDENTIFY is
answered DONE with the fixed capability record and the requesting port (layout of 11.7). Nothing else changes. -/
def Obligations.MalformedUnknownAndIdentifyAreAnswered : Prop :=
  (∀ (s : State) (p : Port) (tag : Half) (lane : Byte) (rest : List Entry),
     (s.offers p (.malformed tag lane) rest →
       exec (.malformedEntry p tag lane) s = .next ((s.took p rest).replied p tag lane .malformed [])) ∧
     (s.offers p (.unknown tag lane) rest →
       exec (.unknownEntry p tag lane) s = .next ((s.took p rest).replied p tag lane .unknown []))) ∧
  (∀ (s : State) (p : Port) (tag : Half) (lane : Byte) (rest : List Entry), s.offers p (.whole tag lane .identify) rest →
     exec (.identify p tag lane) s = .next ((s.took p rest).replied p tag lane .done
       [0x52#8, 0x50#8, 0x54#8, 0x0C#8, 0xF8#8, 1#8, 6#8, 2#8, 1#8, 0#8, 0x10#8, 0#8, 32#8, 4#8, 1#8, 0#8, 4#8, 0#8, 8#8,
         if p = .A then 0#8 else 1#8]))

/-- R166, R177, R185: PORT SETUP sets each setting whose code names a defined value, and NOTICE MASK masks or unmasks each
category its field names, on the sending port alone. Each is answered DONE with the settings, or the masks and the
summary of pending entries, as they then stand. -/
def Obligations.PortSetupAndNoticeMaskSetTheSendingPort : Prop :=
  (∀ (s : State) (p : Port) (tag : Half) (lane width order delivery : Byte) (rest : List Entry),
     s.offers p (.whole tag lane (.portSetup width order delivery)) rest →
     let q := s.port p
     let w := if width = 16#8 then Width.w16 else if width = 24#8 then .w24 else q.width
     let o := if order = 0#8 then ByteOrder.little else if order = 1#8 then .big else q.order
     let d := if delivery = 0#8 then false else if delivery = 1#8 then true else q.delivery
     exec (.portSetup p tag lane width order delivery) s = .next
       (((s.took p rest).setPort p { q with queue := rest, width := w, order := o, delivery := d }).replied p tag lane
         .done [0x40#8, if w = .w16 then 16#8 else 24#8, if o = .little then 0#8 else 1#8, if d then 1#8 else 0#8])) ∧
  (∀ (s : State) (p : Port) (tag : Half) (lane : Byte) (m : Vector Byte 6) (rest : List Entry),
     s.offers p (.whole tag lane (.noticeMask m)) rest →
     let q := s.port p
     ∃ (masks : Vector Bool 6) (payload : List Byte),
       (∀ c : Fin 6, masks[c.val] = if m[c.val] = 1#8 then true else if m[c.val] = 0#8 then false else q.masks[c.val]) ∧
       payload.length = 13 ∧ payload[0]? = some 0x50#8 ∧
       (∀ c : Fin 6, payload[c.val + 1]? = some (if masks[c.val] then 1#8 else 0#8)) ∧
       (∀ c : Fin 6, ∃ b : Byte, payload[c.val + 7]? = some b ∧ b.getLsbD 7 = false ∧
         ∀ j : Fin 7, b.getLsbD j.val = (q.entries[7 * c.val + j.val]'(by omega)).isSome) ∧
       exec (.noticeMask p tag lane m) s = .next
         (((s.took p rest).setPort p { q with queue := rest, masks := masks }).replied p tag lane .done payload))

/-- R180, R185: CONDITION answers the lane record or the port record of 11.7 as it stands; another form, lane or port
is refused with RANGE in the layout of its form, or in the LANE layout where the form is refused. A CLOSED lane not opened
since a reset gives zeros, its grade byte among them (assumption log 22); any other lane gives what it holds. -/
def Obligations.ConditionReportsCounters : Prop :=
  ∀ (s : State) (p : Port) (tag : Half) (lane form which : Byte) (rest : List Entry),
    s.offers p (.whole tag lane (.condition form which)) rest →
    let answer := fun (st : Status) (payload : List Byte) =>
      exec (.condition p tag lane form which) s = .next ((s.took p rest).replied p tag lane st payload)
    (form = 0#8 → 5 < which.toNat → answer .range (0x51#8 :: List.replicate 71 0#8)) ∧
    (form = 0#8 → ∀ L : LaneId, which.toNat = L.val →
      let l := s.lane L
      answer .done ([0x51#8, 0#8, which, l.state.byte] ++
        if l.state = .closed ∧ l.everOpened = false then List.replicate 68 0#8
        else l.counters.toList.flatMap (beBytes 4) ++
          [BitVec.ofNat 8 l.grade.number, BitVec.ofNat 8 l.window.length] ++
          beBytes 2 ((l.window.map WindowEntry.count).sum))) ∧
    (form = 1#8 → 1 < which.toNat → answer .range (0x51#8 :: List.replicate 19 0#8)) ∧
    (form = 1#8 → ∀ k : Port, which = portByte k →
      let q := s.port k
      answer .done ([0x51#8, 1#8, which, q.link.byte] ++ beBytes 4 q.crcError ++ beBytes 4 q.malformed ++
        beBytes 4 q.stray ++ beBytes 4 q.dropped)) ∧
    (form ≠ 0#8 → form ≠ 1#8 → answer .range (0x51#8 :: List.replicate 71 0#8))

/-! ### Links and resets (Chapter 9, 9.4) -/

/-- R165, R168, R169: a link DOWN returns the port to the values the table gives and keeps its pointer, counters and
first-UP flag. A link UP makes the port UP and raises toward it alone a notice of category UNIT: RESET where the first-UP
flag was set, which it clears, else LINK UP. Nothing else changes. -/
def Obligations.LinkEventsReachTheirPortAlone : Prop :=
  (∀ (s : State) (p : Port), (s.port p).link = .up →
     let q := s.port p
     exec (.linkDown p) s = .next (({ s with events := s.events + 1 } : State).setPort p
       { link := .down
         width := .w24
         order := .little
         delivery := true
         queue := []
         inProgress := none
         parked := []
         answers := []
         flow := []
         cursor := ⟨0, 0⟩
         reservation := none
         masks := Vector.replicate 6 false
         entries := Vector.replicate 42 none
         pointer := q.pointer
         crcError := q.crcError
         malformed := q.malformed
         stray := q.stray
         dropped := q.dropped
         firstUp := q.firstUp
         sent := q.sent })) ∧
  (∀ (s : State) (p : Port), (s.port p).link = .down →
     let t : State := { s with events := s.events + 1 }
     exec (.linkUp p) s = .next (t.setPort p
       { s.port p with
         link := .up
         firstUp := false
         entries := (s.port p).entries.set 41
           (t.foldedEntry p (if (s.port p).firstUp then .reset else .linkUp) none 0 0) }))

/-- R170, R171, R178, R165: after the reset pin every block holds its reset values and both links are DOWN with the
first-UP flag set. UNIT RESET does the same, but that each port keeps its link state, its first-UP flag is clear, and a
port whose link is UP has RESET pending, with the count of a RESET still pending plus one; it is not answered. What is not
the part's own stands: the levels at the perforation inputs, the frames already sent, the waiting commands (assumption
log 13). -/
def Obligations.ResetsRestoreEveryBlock : Prop :=
  (∀ s : State, ∃ t : State, exec .resetPin s = .next t ∧ t.lanes = State.reset.lanes ∧ t.store = State.reset.store ∧
     t.engine = State.reset.engine ∧ t.tick = 0 ∧ t.library = State.reset.library ∧
     (∀ p, t.port p = { PortRec.reset with sent := (s.port p).sent }) ∧
     (∀ k, t.line k = Line.reset (s.line k).input) ∧ t.pending = s.pending ∧ t.events = s.events + 1) ∧
  (∀ (s : State) (p : Port) (tag : Half) (lane : Byte) (rest : List Entry),
     s.offers p (.whole tag lane .unitReset) rest →
     ∃ t : State, exec (.unitReset p tag lane) s = .next t ∧ t.lanes = State.reset.lanes ∧ t.store = State.reset.store ∧
       t.engine = State.reset.engine ∧ t.tick = 0 ∧ t.library = State.reset.library ∧
       (∀ k, t.line k = Line.reset (s.line k).input) ∧ t.pending = s.pending ∧ t.events = s.events + 1 ∧
       ∀ r, (t.port r).link = (s.port r).link ∧ (t.port r).firstUp = false ∧ (t.port r).sent = (s.port r).sent ∧
         t.port r =
           { PortRec.reset with
             link := (s.port r).link
             firstUp := false
             sent := (s.port r).sent
             entries := if (s.port r).link = .up then
                 PortRec.reset.entries.set 41 (some
                   { code := .reset
                     count := match (s.port r).entries[41] with
                       | some e => if e.code = .reset then min (e.count + 1) 255 else 1
                       | none => 1
                     pos := 0
                     detail := 0
                     order := s.events + 1 })
               else PortRec.reset.entries })

/-! ### Lanes (Chapter 1) -/

/-- R2: LANE OPEN is refused by the first check that fails: a lane number above 5 with RANGE, an open lane with STATE,
a setting outside its codes or range with RANGE, too few unheld slots or too small an unreserved pool with NOSPACE;
and a refused LANE OPEN changes nothing but its port's queue and answer list. -/
def Obligations.LaneOpenRefusals : Prop :=
  ∀ (s : State) (p : Port) (tag : Half) (lane : Byte) (a : LaneOpenArgs) (rest : List Entry),
    s.offers p (.whole tag lane (.laneOpen a)) rest →
    let refused := fun (st : Status) =>
      exec (.laneOpen p tag lane a) s = .next ((s.took p rest).replied p tag lane st [0x01#8, 0#8])
    (5 < lane.toNat → refused .range) ∧
    ∀ L : LaneId, lane.toNat = L.val →
      ((s.lane L).state ≠ .closed → refused .state) ∧
      ((s.lane L).state = .closed →
        (openRefused a → refused .range) ∧
        (¬ openRefused a →
          ((List.range 256).filter fun n => laneIds.all fun M => !(s.lane M).ring.contains n).length <
              a.ringSize.toNat ∨
            4096 - (laneIds.map fun M => if (s.lane M).state = .closed then 0 else (s.lane M).reserve).sum -
              (laneIds.map fun M =>
                if (s.lane M).state = .closed then 0 else (s.lane M).list.length - (s.lane M).reserve).sum <
              a.reserve.toNat →
          refused .nospace))

/-- R3, R9, R148, R58: a LANE OPEN that passes every check opens the lane: its settings, the lowest unheld slots as
its ring, the first of them FILLING with its checkpoint zero, the four points at the start position, every count,
list and state of Chapters 2 to 4 and 10 at its start, an ACTIVE copy of the named slot under generation 0, and the
hold depth brought into 1 to N − 2, which the status reports. LANE OPENED is raised toward both ports. Of the rest only
the other lanes' pool flags and the ports' notices may change. -/
def Obligations.LaneOpenOpensTheLane : Prop :=
  ∀ (s : State) (p : Port) (tag : Half) (lane : Byte) (a : LaneOpenArgs) (rest : List Entry) (L : LaneId)
    (slot : Fin 32),
    s.offers p (.whole tag lane (.laneOpen a)) rest → lane.toNat = L.val → (s.lane L).state = .closed →
    ¬ openRefused a → a.slot.toNat = slot.val → a.ringSize.toNat ≤ s.freeSlots.length →
    a.reserve.toNat ≤ s.freeCommon →
    let d := if a.hold.toNat = 0 then 1 else min a.hold.toNat (a.ringSize.toNat - 2)
    let ring := s.freeSlots.take a.ringSize.toNat
    let before : State := { s with events := s.events + 1 }
    ∃ t : State, exec (.laneOpen p tag lane a) s = .next t ∧
      t.lane L = { Lane.reset with
        state := .active
        source := if a.source = 0#8 then .A else .B
        sink := if a.sink = 0#8 then .A else .B
        rate := if a.rate = 0#8 then .k48 else .k96
        ring := ring
        hold := d
        reserve := a.reserve.toNat
        line := lineOf a.line
        start := a.start.toNat
        width := if a.width = 16#8 then .w16 else .w24
        rounding := if a.rounding = 0#8 then .nearest else .truncate
        log := a.log = 1#8
        fill := a.start.toNat
        analysis := a.start.toNat
        render := a.start.toNat
        release := a.start.toNat
        blocks := { state := .filling } :: List.replicate (a.ringSize.toNat - 1) {}
        active := some ⟨s.library[slot.val], 0, slot.val⟩
        low := decide (t.available L < 64)
        everOpened := true } ∧
      (∀ M, M ≠ L → (s.lane M).sameButPoolFlags (t.lane M)) ∧
      t.store = s.store.setCheckpoint (ring.headD 0) Checkpoint.zero ∧ t.engine = s.engine ∧ t.lines = s.lines ∧
      t.library = s.library ∧ t.tick = s.tick ∧ t.pending = s.pending ∧
      (∀ q, (t.port q).entries[(entryIndex 0 (some L)).val] =
        before.foldedEntry q .laneOpened (some L) a.start.toNat 0) ∧
      ∀ q, t.port q = { ((s.took p rest).replied p tag lane (if d = a.hold.toNat then .done else .clamped)
        [0x01#8, BitVec.ofNat 8 d]).port q with entries := (t.port q).entries }

/-- R8, R64, R88, R107, R163, R82: LANE CLOSE of an open lane closes it at once, keeping its counters, grade and window;
abandons its render in flight; loses its reservations; withdraws its flow entries; answers its parked requests CLOSED
on their ports, in the order of parking and ahead of its own DONE; and raises LANE CLOSED with the release point
toward both ports. A lane number above 5 is refused with RANGE and a CLOSED lane with STATE. -/
def Obligations.LaneCloseAbandonsTheLane : Prop :=
  ∀ (s : State) (p : Port) (tag : Half) (lane : Byte) (rest : List Entry), s.offers p (.whole tag lane .laneClose) rest →
    let refused := fun (st : Status) =>
      exec (.laneClose p tag lane) s = .next ((s.took p rest).replied p tag lane st [0x02#8])
    (5 < lane.toNat → refused .range) ∧
    ∀ L : LaneId, lane.toNat = L.val →
      ((s.lane L).state = .closed → refused .state) ∧
      ((s.lane L).state ≠ .closed →
        let before : State := { s with events := s.events + 1 }
        let closedAnswers := fun (q : PortRec) => (q.parked.filter fun k => k.lane == L).map fun k =>
          ({ tag := k.tag
             lane := laneByte k.lane
             status := .closed
             payload := match k.kind with
               | .drain => [0x03#8]
               | .sync _ => [0x14#8, 0#8, 0#8, 0#8, 0#8]
             ofParked := true } : Response)
        ∃ t : State, exec (.laneClose p tag lane) s = .next t ∧
          t.lane L = { Lane.reset with
            counters := (s.lane L).counters
            grade := (s.lane L).grade
            window := (s.lane L).window
            everOpened := true } ∧
          (∀ M, M ≠ L → (s.lane M).sameButPoolFlags (t.lane M)) ∧
          t.engine = { s.engine with
            inFlight := s.engine.inFlight.map fun r => { r with abandoned := r.abandoned || r.lane == L } } ∧
          t.store = s.store ∧ t.lines = s.lines ∧ t.library = s.library ∧ t.tick = s.tick ∧
          t.pending = s.pending ∧
          (∀ q, (t.port q).entries[(entryIndex 0 (some L)).val] =
            before.foldedEntry q .laneClosed (some L) (s.lane L).release 0) ∧
          ∀ q, t.port q = { s.port q with
            queue := if q = p then rest else (s.port q).queue
            inProgress := if q = p then some tag else (s.port q).inProgress
            parked := (s.port q).parked.filter fun k => !(k.lane == L)
            answers := (s.port q).answers ++ closedAnswers (s.port q) ++
              if q = p then [{ tag := tag, lane := lane, status := .done, payload := [0x02#8], ofParked := false }]
              else []
            flow := (s.port q).flow.filter fun e => e.lane != L
            reservation := Reservation.kept (s.port q).reservation fun v => v.lane == L
            entries := (t.port q).entries })

/-- R5: LANE DRAIN of a lane number above 5 is refused with RANGE, of a lane that is not ACTIVE with STATE, and with BUSY
where the port already has four parked requests. Otherwise a lane that still holds a placed position becomes DRAINING and
the request is parked with its tag on the port that sent it, which has no request in progress and no answer from it; its
held state stands and no GO is sent. A lane drained before anything was placed has nothing to release and is closed at
once, its drain answered DONE (the model's reading of R7, assumption log 7). -/
def Obligations.LaneDrainIsRefusedOrParked : Prop :=
  (∀ (s : State) (p : Port) (tag : Half) (lane : Byte) (rest : List Entry), s.offers p (.whole tag lane .laneDrain) rest →
     let refused := fun (st : Status) =>
       exec (.laneDrain p tag lane) s = .next ((s.took p rest).replied p tag lane st [0x03#8])
     (5 < lane.toNat → refused .range) ∧
     ∀ L : LaneId, lane.toNat = L.val →
       ((s.lane L).state ≠ .active → refused .state) ∧
       ((s.lane L).state = .active → 4 ≤ (s.port p).parkedCount → refused .busy)) ∧
  (∀ (s : State) (p : Port) (tag : Half) (lane : Byte) (rest : List Entry) (L : LaneId),
     s.offers p (.whole tag lane .laneDrain) rest → lane.toNat = L.val → (s.lane L).state = .active →
     (s.port p).parkedCount < 4 →
     ((s.lane L).release < (s.lane L).fill →
       ∃ t : State, exec (.laneDrain p tag lane) s = .next t ∧ (t.lane L).state = .draining ∧
         (t.port p).parked = (s.port p).parked ++ [⟨tag, L, .drain⟩] ∧ (t.port p).queue = rest ∧
         (t.port p).inProgress = none ∧ (t.port p).answers = (s.port p).answers ∧
         ((s.lane L).held = true → (t.lane L).held = true) ∧
         (∀ q e, e ∈ (t.port q).flow → e.hold = false → e ∈ (s.port q).flow) ∧
         (∀ q, q ≠ p → (t.port q).parked = (s.port q).parked ∧ (t.port q).answers = (s.port q).answers ∧
           (t.port q).queue = (s.port q).queue) ∧
         t.lines = s.lines ∧ t.library = s.library ∧ t.tick = s.tick) ∧
     ((s.lane L).fill = (s.lane L).start → (s.lane L).release = (s.lane L).start → (s.lane L).landing = [] →
       (s.lane L).logQueue = [] → (s.lane L).final = none →
       ∃ t : State, exec (.laneDrain p tag lane) s = .next t ∧ (t.lane L).state = .closed ∧ (t.lane L).ring = [] ∧
         { tag := tag, lane := laneByte L, status := .done, payload := [0x03#8], ofParked := true } ∈
           (t.port p).answers))

/-- R4: LANE STATUS is answered DONE in every lane state with the record of 11.7, a CLOSED lane's every item but its
state zero, and refused with RANGE for a lane number above 5; it changes nothing else. -/
def Obligations.LaneStatusReportsTheLane : Prop :=
  ∀ (s : State) (p : Port) (tag : Half) (lane : Byte) (rest : List Entry), s.offers p (.whole tag lane .laneStatus) rest →
    let answer := fun (st : Status) (payload : List Byte) =>
      exec (.laneStatus p tag lane) s = .next ((s.took p rest).replied p tag lane st payload)
    (5 < lane.toNat → answer .range (0x04#8 :: List.replicate 44 0#8)) ∧
    ∀ L : LaneId, lane.toNat = L.val →
      let l := s.lane L
      let latch := if l.start < l.analysis then
          (s.store.checkpoint (l.slotOf ((l.analysis - 1 - l.start) / 256))).latch
        else ⟨.disabled, 0, 0⟩
      (l.state = .closed → answer .done (0x04#8 :: List.replicate 44 0#8)) ∧
      (l.state ≠ .closed → answer .done (
        [0x04#8, if l.state = .active then 1#8 else 2#8] ++
        beBytes 5 l.fill ++ beBytes 5 l.analysis ++ beBytes 5 l.render ++ beBytes 5 l.release ++
        [BitVec.ofNat 8 (l.blocks.filter fun b => b.state == .free).length,
          BitVec.ofNat 8 (l.blocks.filter fun b => b.state == .dirty).length] ++
        beBytes 2 (l.list.filter fun r => r.state == .opened).length ++ beBytes 2 l.list.length ++
        [latch.line.byte] ++ beBytes 4 latch.increment ++
        beBytes 4 (l.active.elim 0 WorkingCopy.generation) ++ beBytes 4 (l.retiring.elim 0 WorkingCopy.generation) ++
        [if l.retiring.isSome then 1#8 else 0#8, if l.held then 1#8 else 0#8, BitVec.ofNat 8 l.afterHold,
          BitVec.ofNat 8 l.landing.length]))

/-! ### The Repair List and the Edit Unit (Chapters 3 and 4) -/

/-- R66, R67: the checks that every EDIT passes through first, in their order, on the four rows alike: a lane number above
5 or an undefined action with RANGE, a CLOSED lane with NOLANE, a conditional EDIT without a reservation on the lane
with LOST. A refused EDIT changes nothing but its port's queue, answer list and reservation, and carries the edit
number, or 0 for a lane number above 5 or a CLOSED lane. Two clauses rest on the model's choices: an EDIT of an undefined
action is taken by the row EDIT_VETO (assumption log 4), and LOST counts as a refusal, so that its answer carries action
0 (assumption log 10). -/
def Obligations.EditChecksCommonToTheFourActions : Prop :=
  ∀ (c : Instr) (s : State) (p : Port) (tag : Half) (lane : Byte) (a : EditArgs) (rest : List Entry),
    entryTaken c = some (p, .whole tag lane (.edit a)) → s.offers p (.whole tag lane (.edit a)) rest →
    let refused := fun (st : Status) (edit : Nat) =>
      exec c s = .next (((s.took p rest).replied p tag lane st
        ([0x10#8, 0#8] ++ beBytes 4 edit ++ List.replicate 8 0#8)).modPort p fun q => { q with reservation := none })
    let defined := a.action = 1#8 ∨ a.action = 2#8 ∨ a.action = 3#8 ∨ a.action = 4#8
    (5 < lane.toNat → refused .range 0) ∧
    ∀ L : LaneId, lane.toNat = L.val →
      (¬ defined → refused .range (if (s.lane L).state = .closed then 0 else (s.lane L).edit)) ∧
      (defined → (s.lane L).state = .closed → refused .nolane 0) ∧
      (defined → (s.lane L).state ≠ .closed → a.conditional ≠ 0#8 →
        (∀ v, (s.port p).reservation = some v → v.lane ≠ L) → refused .lost (s.lane L).edit)

/-- R68, R69, R75, R81: VETO and RESTORE name a record by its start. None there is refused NOREC, an OPEN one STATE, a
FROZEN one TOO_LATE; a LIVE one of the disposition asked for already is answered DONE with no change. Any other LIVE
record takes the disposition; the edit number is raised, the blocks the record touches are marked with it, a VETO adds
to the lane's VETO counter, and the other port's reservation on a block the record touches is lost. The sending port
then holds no reservation, and the engine, if IDLE, may grant. -/
def Obligations.VetoAndRestoreChangeTheDisposition : Prop :=
  ∀ (s : State) (p : Port) (tag : Half) (lane : Byte) (a : EditArgs) (rest : List Entry) (L : LaneId) (veto : Bool),
    a.action = (if veto then 1#8 else 2#8) → s.offers p (.whole tag lane (.edit a)) rest → lane.toNat = L.val →
    (s.lane L).state ≠ .closed →
    (a.conditional = 0#8 ∨ ∃ v, (s.port p).reservation = some v ∧ v.lane = L) →
    let c : Instr := if veto then .editVeto p tag lane a else .editRestore p tag lane a
    let wanted : Disp := if veto then .vetoed else .applied
    let l := s.lane L
    let unreserved := fun (t : State) => t.modPort p fun q => { q with reservation := none }
    let refused := fun (st : Status) =>
      exec c s = .next (unreserved ((s.took p rest).replied p tag lane st
        ([0x10#8, 0#8] ++ beBytes 4 l.edit ++ List.replicate 8 0#8)))
    let n := min (l.edit + 1) 4294967295
    let found := l.list.find? fun r => r.start == a.pos.toNat
    (found = none → refused .norec) ∧
    ∀ r, found = some r →
      (r.state = .opened → refused .state) ∧
      (r.state = .frozen → refused .tooLate) ∧
      (r.state = .live → r.disp = wanted →
        exec c s = .next (unreserved ((s.took p rest).replied p tag lane .done
          ([0x10#8, a.action] ++ beBytes 4 l.edit ++ List.replicate 8 0#8))).grant) ∧
      (r.state = .live → r.disp ≠ wanted →
        ∃ t : State, exec c s = .next t.grant ∧
          t.lane L = { l with
            list := l.list.map fun x => if x.start = r.start then { x with disp := wanted } else x
            edit := n
            blocks := (l.editMark r.start r.last).blocks
            counters := if veto then l.counters.set 8 (min (l.counters[8] + 1) 4294967295) else l.counters } ∧
          (∀ M, M ≠ L → t.lane M = s.lane M) ∧
          t.port p = { s.port p with
            queue := rest
            inProgress := some tag
            answers := (s.port p).answers ++ [{
              tag := tag
              lane := lane
              status := .done
              payload := [0x10#8, a.action] ++ beBytes 4 n ++ List.replicate 8 0#8
              ofParked := false }]
            reservation := none } ∧
          t.port (otherPort p) = { s.port (otherPort p) with
            reservation := Reservation.kept (s.port (otherPort p)).reservation fun v =>
              v.lane == L && decide (r.start ≤ l.lastOf (l.ord v.first)) && decide (v.first ≤ r.last) } ∧
          t.store = s.store ∧ t.engine = s.engine ∧ t.lines = s.lines ∧ t.library = s.library ∧ t.tick = s.tick)

/-- R76, with R75: the marks an edit numbered n makes, block by block of the unreleased blocks: a RENDERED block the record
touches becomes DIRTY with mark n, a DIRTY one keeps the lower mark, a RENDERING one has its touch mark set or
lowered, and no other block changes. -/
def Obligations.EditMarksTheBlocksItTouches : Prop :=
  ∀ (l : Lane) (lo hi : Nat), 0 < l.ring.length → l.blocks.length = l.ring.length →
    let n := min (l.edit + 1) 4294967295
    let lower := fun (m : Option Nat) => some (m.elim n fun x => min x n)
    (l.editMark lo hi) = { l with edit := n, blocks := (l.editMark lo hi).blocks } ∧
    ∀ j, l.oldest ≤ j → j < l.oldest + l.ring.length →
      let b := l.block j
      (l.editMark lo hi).block j =
        if lo ≤ l.lastOf j ∧ l.firstOf j ≤ hi then
          match b.state with
          | .rendered => { b with state := .dirty, mark := some n }
          | .dirty => { b with mark := lower b.mark }
          | .rendering => { b with touch := lower b.touch }
          | .free => b
          | .filling => b
          | .analysed => b
        else b

/-- R70, R71: the checks of a FORCE in their order, each refusal with the edit number and no other change than the sending
port's queue, answers and reservation; and its effect: the records inside the span are freed, the new FORCED record
enters the list LIVE and APPLIED with both anchors from the raw store, the edit number is raised, the FORCED counter
rises, and the answer carries the record's start and length and the number absorbed. The engine, if IDLE, may then
grant. -/
def Obligations.ForceAddsARecord : Prop :=
  ∀ (s : State) (p : Port) (tag : Half) (lane : Byte) (a : EditArgs) (rest : List Entry) (L : LaneId),
    a.action = 3#8 → s.offers p (.whole tag lane (.edit a)) rest → lane.toNat = L.val →
    (s.lane L).state ≠ .closed →
    (a.conditional = 0#8 ∨ ∃ v, (s.port p).reservation = some v ∧ v.lane = L) →
    let l := s.lane L
    let lo := a.pos.toNat
    let len := a.length.toNat
    let hi := lo + len - 1
    let refused := fun (st : Status) =>
      exec (.editForce p tag lane a) s = .next (((s.took p rest).replied p tag lane st
        ([0x10#8, 0#8] ++ beBytes 4 l.edit ++ List.replicate 8 0#8)).modPort p fun q => { q with reservation := none })
    let badLength := len = 0 ∨ 1024 < len ∨ 4294967296 < lo + len
    let inside := fun (r : Record) => decide (lo ≤ r.start) && decide (r.last ≤ hi)
    let overlap := ∃ r ∈ l.list, r.start ≤ hi + 1 ∧ lo - 1 ≤ r.last ∧
      ¬(inside r = true ∧ r.state = .live ∧ r.disp = .applied)
    let kept := l.list.filter fun r => !inside r
    (badLength → refused .range) ∧
    (¬ badLength → lo = 0 ∨ lo - 1 < l.release → refused .tooLate) ∧
    (¬ badLength → 0 < lo → l.release ≤ lo - 1 → l.analysis ≤ hi + 1 → refused .range) ∧
    (¬ badLength → 0 < lo → l.release ≤ lo - 1 → hi + 1 < l.analysis → overlap → refused .overlap) ∧
    (¬ badLength → 0 < lo → l.release ≤ lo - 1 → hi + 1 < l.analysis → ¬ overlap →
      ((s.setList L kept).canTake L = false → refused .nospace) ∧
      ((s.setList L kept).canTake L = true →
        ∃ t : State, exec (.editForce p tag lane a) s = .next t.grant ∧
          (t.lane L).list = insertRecord
            { start := lo
              length := len
              kind := .forced
              origin := if p = .A then .portA else .portB
              state := .live
              disp := .applied
              ratio := 0
              before := some ((s.took p rest).anchorAt L (lo - 1))
              after := some ((s.took p rest).anchorAt L (hi + 1)) } kept ∧
          (t.lane L).edit = min (l.edit + 1) 4294967295 ∧
          (t.lane L).blocks = (l.editMark lo hi).blocks ∧
          (t.lane L).counters = l.counters.set 7 (min (l.counters[7] + 1) 4294967295) ∧
          (∀ M, M ≠ L → (s.lane M).sameButPoolFlags (t.lane M)) ∧
          (t.port p).reservation = none ∧
          (t.port p).answers = (s.port p).answers ++ [{
            tag := tag
            lane := lane
            status := .done
            payload := [0x10#8, 3#8] ++ beBytes 4 (min (l.edit + 1) 4294967295) ++ beBytes 4 lo ++ beBytes 2 len ++
              beBytes 2 (l.list.filter inside).length
            ofParked := false }] ∧
          (t.port (otherPort p)).reservation = Reservation.kept (s.port (otherPort p)).reservation (fun v =>
            v.lane == L && decide (lo ≤ l.lastOf (l.ord v.first)) && decide (v.first ≤ hi)) ∧
          t.store = s.store ∧ t.engine = s.engine ∧ t.lines = s.lines ∧ t.library = s.library ∧ t.tick = s.tick))

/-- R72, R73: the checks of a SPLICE about its centre, Ls positions to either side, and its effect: that of a FORCE with
kind SPLICE, except that an anchor at or beyond the analysis point is held absent and that the SPLICE counter rises. On a lane
whose drain has finished its analysis such an anchor is 0, the value of a position beyond the lane's last: that it is taken at
once is the model's reading (assumption log 20). -/
def Obligations.SpliceAddsARecord : Prop :=
  ∀ (s : State) (p : Port) (tag : Half) (lane : Byte) (a : EditArgs) (rest : List Entry) (L : LaneId) (w : WorkingCopy),
    a.action = 4#8 → s.offers p (.whole tag lane (.edit a)) rest → lane.toNat = L.val →
    (s.lane L).state ≠ .closed → (s.lane L).active = some w →
    (a.conditional = 0#8 ∨ ∃ v, (s.port p).reservation = some v ∧ v.lane = L) →
    let l := s.lane L
    let centre := a.pos.toNat
    let lo := centre - w.profile.ls
    let hi := centre + w.profile.ls
    let refused := fun (st : Status) =>
      exec (.editSplice p tag lane a) s = .next (((s.took p rest).replied p tag lane st
        ([0x10#8, 0#8] ++ beBytes 4 l.edit ++ List.replicate 8 0#8)).modPort p fun q => { q with reservation := none })
    let outside := centre < w.profile.ls ∨ 4294967295 < hi
    let inside := fun (r : Record) => decide (lo ≤ r.start) && decide (r.last ≤ hi)
    let overlap := ∃ r ∈ l.list, r.start ≤ hi + 1 ∧ lo - 1 ≤ r.last ∧
      ¬(inside r = true ∧ r.state = .live ∧ r.disp = .applied)
    let kept := l.list.filter fun r => !inside r
    let anchor := fun (pos : Nat) => if pos < l.analysis then some ((s.took p rest).anchorAt L pos)
      else if l.finished = true then some 0 else none
    (outside → refused .range) ∧
    (¬ outside → lo = 0 ∨ lo - 1 < l.release → refused .tooLate) ∧
    (¬ outside → 0 < lo → l.release ≤ lo - 1 → l.analysis + 16383 < hi → refused .range) ∧
    (¬ outside → 0 < lo → l.release ≤ lo - 1 → hi ≤ l.analysis + 16383 → overlap → refused .overlap) ∧
    (¬ outside → 0 < lo → l.release ≤ lo - 1 → hi ≤ l.analysis + 16383 → ¬ overlap →
      ((s.setList L kept).canTake L = false → refused .nospace) ∧
      ((s.setList L kept).canTake L = true →
        ∃ t : State, exec (.editSplice p tag lane a) s = .next t.grant ∧
          (t.lane L).list = insertRecord
            { start := lo
              length := 2 * w.profile.ls + 1
              kind := .splice
              origin := if p = .A then .portA else .portB
              state := .live
              disp := .applied
              ratio := 0
              before := anchor (lo - 1)
              after := anchor (hi + 1) } kept ∧
          (t.lane L).edit = min (l.edit + 1) 4294967295 ∧
          (t.lane L).blocks = (l.editMark lo hi).blocks ∧
          (t.lane L).counters = l.counters.set 6 (min (l.counters[6] + 1) 4294967295) ∧
          (∀ M, M ≠ L → (s.lane M).sameButPoolFlags (t.lane M)) ∧
          (t.port p).reservation = none ∧
          (t.port p).answers = (s.port p).answers ++ [{
            tag := tag
            lane := lane
            status := .done
            payload := [0x10#8, 4#8] ++ beBytes 4 (min (l.edit + 1) 4294967295) ++ beBytes 4 lo ++
              beBytes 2 (2 * w.profile.ls + 1) ++ beBytes 2 (l.list.filter inside).length
            ofParked := false }] ∧
          (t.port (otherPort p)).reservation = Reservation.kept (s.port (otherPort p)).reservation (fun v =>
            v.lane == L && decide (lo ≤ l.lastOf (l.ord v.first)) && decide (v.first ≤ hi)) ∧
          t.store = s.store ∧ t.engine = s.engine ∧ t.lines = s.lines ∧ t.library = s.library ∧ t.tick = s.tick))

/-- R79: RESERVE is refused with RANGE for a lane number above 5, NOLANE on a CLOSED lane, RANGE for a position before the
start position or a block not yet begun, TOO_LATE for a released block; each refusal leaves the reservation. Otherwise
the port's reservation becomes the block, replacing any other, and the answer gives the block's first position, its
state and the number of records that touch it. That a position at or beyond the fill point, inside the nominal 256
positions of a short final block, reserves that block is the model's reading (assumption log 21). -/
def Obligations.ReserveSetsThePortsReservation : Prop :=
  ∀ (s : State) (p : Port) (tag : Half) (lane : Byte) (pos : Word) (rest : List Entry),
    s.offers p (.whole tag lane (.reserve pos)) rest →
    let refused := fun (st : Status) =>
      exec (.reserve p tag lane pos) s = .next ((s.took p rest).replied p tag lane st
        (0x11#8 :: List.replicate 7 0#8))
    (5 < lane.toNat → refused .range) ∧
    ∀ L : LaneId, lane.toNat = L.val →
      let l := s.lane L
      let first := l.start + 256 * ((pos.toNat - l.start) / 256)
      let block := l.block ((pos.toNat - l.start) / 256)
      (l.state = .closed → refused .nolane) ∧
      (l.state ≠ .closed → pos.toNat < l.start ∨ l.fill ≤ first → refused .range) ∧
      (l.state ≠ .closed → l.start ≤ pos.toNat → first < l.fill → first < l.release → refused .tooLate) ∧
      (l.state ≠ .closed → l.start ≤ pos.toNat → first < l.fill → l.release ≤ first →
        exec (.reserve p tag lane pos) s = .next
          (((s.took p rest).setPort p { s.port p with queue := rest, reservation := some ⟨L, first⟩ }).replied p tag
            lane .done (0x11#8 :: beBytes 4 first ++ [block.state.byte] ++
              beBytes 2 (l.list.filter fun r =>
                decide (r.start ≤ l.lastOf ((pos.toNat - l.start) / 256)) && decide (first ≤ r.last)).length)))

/-- R83, R84, R185: CURSOR SET sets the sending port's cursor, in any lane state, and is refused with RANGE for a lane number
above 5. LIST READ of 1 to 16 records reads the cursor's lane, whatever lane its header names: the edit number, up to n
records from the cursor position on, and whether more follow; the cursor then stands past the last record returned. A
count outside 1 to 16 is refused with RANGE, a CLOSED lane with NOLANE, the cursor unchanged. -/
def Obligations.CursorSetAndListRead : Prop :=
  ∀ (s : State) (p : Port) (tag : Half) (lane n : Byte) (pos : Word) (rest : List Entry),
    (s.offers p (.whole tag lane (.cursorSet pos)) rest →
      (5 < lane.toNat → exec (.cursorSet p tag lane pos) s =
        .next ((s.took p rest).replied p tag lane .range [0x12#8])) ∧
      ∀ L : LaneId, lane.toNat = L.val → exec (.cursorSet p tag lane pos) s = .next
        (((s.took p rest).setPort p { s.port p with queue := rest, cursor := ⟨L, pos.toNat⟩ }).replied p tag lane .done
          [0x12#8])) ∧
    (s.offers p (.whole tag lane (.listRead n)) rest →
      let cursor := (s.port p).cursor
      let l := s.lane cursor.lane
      let ahead := l.list.filter fun r => decide (cursor.pos ≤ r.start)
      let given := ahead.take n.toNat
      let refused := fun (st : Status) =>
        exec (.listRead p tag lane n) s = .next ((s.took p rest).replied p tag lane st
          (0x13#8 :: List.replicate 7 0#8))
      (n.toNat < 1 ∨ 16 < n.toNat → refused .range) ∧
      (1 ≤ n.toNat → n.toNat ≤ 16 → l.state = .closed → refused .nolane) ∧
      (1 ≤ n.toNat → n.toNat ≤ 16 → l.state ≠ .closed →
        exec (.listRead p tag lane n) s = .next
          (((s.took p rest).setPort p
            { s.port p with
              queue := rest
              cursor := match given.getLast? with
                | some r => ⟨cursor.lane, r.start + 1⟩
                | none => cursor }).replied p tag lane .done
            ([0x13#8, laneByte cursor.lane] ++ beBytes 4 l.edit ++
              [BitVec.ofNat 8 given.length, if given.length < ahead.length then 1#8 else 0#8] ++
              given.flatMap Record.wire))))

/-- R86: SYNC captures the lane's edit number s. With no block DIRTY or RENDERING under a mark at or below s it is answered
DONE at once; otherwise it is parked, or refused with BUSY where the port already has four parked requests. A lane
number above 5 is refused with RANGE and a CLOSED lane with NOLANE. -/
def Obligations.SyncIsAnsweredOrParked : Prop :=
  ∀ (s : State) (p : Port) (tag : Half) (lane : Byte) (rest : List Entry), s.offers p (.whole tag lane .sync) rest →
    let refused := fun (st : Status) =>
      exec (.sync p tag lane) s = .next ((s.took p rest).replied p tag lane st (0x14#8 :: List.replicate 4 0#8))
    (5 < lane.toNat → refused .range) ∧
    ∀ L : LaneId, lane.toNat = L.val →
      let l := s.lane L
      let low := fun (m : Option Nat) => ∃ x, m = some x ∧ x ≤ l.edit
      let waits := ∃ j, l.oldest ≤ j ∧ j < l.oldest + l.ring.length ∧
        (((l.block j).state = .dirty ∧ low (l.block j).mark) ∨
          ((l.block j).state = .rendering ∧ (low (l.block j).mark ∨ low (l.block j).touch)))
      (l.state = .closed → refused .nolane) ∧
      (l.state ≠ .closed → ¬ waits →
        exec (.sync p tag lane) s = .next
          ((s.took p rest).replied p tag lane .done (0x14#8 :: beBytes 4 l.edit))) ∧
      (l.state ≠ .closed → waits → (s.port p).parkedCount < 4 →
        exec (.sync p tag lane) s = .next ((s.took p rest).setPort p
          { s.port p with queue := rest, parked := (s.port p).parked ++ [⟨tag, L, .sync l.edit⟩] })) ∧
      (l.state ≠ .closed → waits → 4 ≤ (s.port p).parkedCount → refused .busy)

/-! ### The Profile Library (Chapter 8) -/

/-- R144, R145: PROFILE WRITE is refused with RANGE, changing nothing, for a slot above 31, an undefined hum mode, levels
that decrease after clamping, or thresholds out of order. Otherwise the slot's record becomes the one carried with every
field brought to the nearer end of its range; the answer carries that record, CLAMPED exactly where a field was
clamped. -/
def Obligations.ProfileWriteClampsAndReplaces : Prop :=
  ∀ (s : State) (p : Port) (tag : Half) (lane slot : Byte) (r : ProfileRaw) (rest : List Entry),
    s.offers p (.whole tag lane (.profileWrite slot r)) rest →
    ∃ held : Profile,
      (held.t = max 8 (min 255 r.t.toNat) ∧ held.g = max 1 (min 8 r.g.toNat) ∧
        held.lmax = max 8 (min 96 r.lmax.toNat) ∧ held.emin = r.emin.toNat ∧ held.ls = min 511 r.ls.toNat ∧
        held.mode = (if r.mode = 0#8 then .fixed else .tracked) ∧ held.f = max 1000 (min 20000 r.f.toNat) ∧
        held.d = max 1 (min 8 r.d.toNat) ∧ held.h = min 8 r.h.toNat ∧ held.mu = max 4 (min 15 r.mu.toNat) ∧
        (∀ j : Fin 12, held.levels[j.val] = min 8388607 r.levels[j.val].toNat) ∧
        (∀ j : Fin 12, held.alphas[j.val] = max 1 (min 32768 r.alphas[j.val].toNat)) ∧
        held.g1 = r.g1.toNat ∧ held.g2 = r.g2.toNat ∧ held.g3 = r.g3.toNat) ∧
      (let bad := 31 < slot.toNat ∨ 1 < r.mode.toNat ∨
          (∃ j : Fin 11, held.levels[j.val + 1] < held.levels[j.val]) ∨ held.g2 < held.g1 ∨ held.g3 < held.g2
        let clamped := held.t ≠ r.t.toNat ∨ held.g ≠ r.g.toNat ∨ held.lmax ≠ r.lmax.toNat ∨ held.ls ≠ r.ls.toNat ∨
          held.f ≠ r.f.toNat ∨ held.d ≠ r.d.toNat ∨ held.h ≠ r.h.toNat ∨ held.mu ≠ r.mu.toNat ∨
          (∃ j : Fin 12, held.levels[j.val] ≠ r.levels[j.val].toNat) ∨
          ∃ j : Fin 12, held.alphas[j.val] ≠ r.alphas[j.val].toNat
        let written := fun (st : Status) (n : Fin 32) =>
          exec (.profileWrite p tag lane slot r) s = .next
            (({ s.took p rest with library := s.library.set n.val held } : State).replied p tag lane st
              ([0x30#8, slot] ++ held.wire))
        (bad → exec (.profileWrite p tag lane slot r) s = .next ((s.took p rest).replied p tag lane .range
          (0x30#8 :: List.replicate 81 0#8))) ∧
        (¬ bad → ∀ n : Fin 32, slot.toNat = n.val →
          (clamped → written .clamped n) ∧ (¬ clamped → written .done n)))

/-- R147, R185: PROFILE READ returns a library slot, or the ACTIVE or RETIRING working copy of a lane with its generation
and source slot. Refusals, in order: another form RANGE; a slot above 31 or a lane above 5 RANGE; a CLOSED lane NOLANE;
no RETIRING copy STATE. It changes nothing else. -/
def Obligations.ProfileReadReturnsARecord : Prop :=
  ∀ (s : State) (p : Port) (tag : Half) (lane form which : Byte) (rest : List Entry),
    s.offers p (.whole tag lane (.profileRead form which)) rest →
    let answer := fun (st : Status) (payload : List Byte) =>
      exec (.profileRead p tag lane form which) s = .next ((s.took p rest).replied p tag lane st payload)
    let refused := fun (st : Status) => answer st (0x31#8 :: List.replicate 87 0#8)
    (2 < form.toNat → refused .range) ∧
    (form = 0#8 → 31 < which.toNat → refused .range) ∧
    (form = 0#8 → ∀ n : Fin 32, which.toNat = n.val →
      answer .done ([0x31#8, 0#8, which, 0#8, 0#8, 0#8, 0#8, 0#8] ++ s.library[n.val].wire)) ∧
    (form = 1#8 ∨ form = 2#8 →
      (5 < which.toNat → refused .range) ∧
      ∀ L : LaneId, which.toNat = L.val →
        ((s.lane L).state = .closed → refused .nolane) ∧
        ((s.lane L).state ≠ .closed →
          (form = 2#8 → (s.lane L).retiring = none → refused .state) ∧
          ∀ w : WorkingCopy, (if form = 1#8 then (s.lane L).active else (s.lane L).retiring) = some w →
            answer .done ([0x31#8, form, which] ++ beBytes 4 w.generation ++ [BitVec.ofNat 8 w.slot] ++
              w.profile.wire)))

/-- R149, R150: REFRESH is refused, changing nothing, with RANGE for a lane above 5 or a slot above 31, NOLANE on a CLOSED
lane, BUSY while a RETIRING copy remains, and RANGE where the generation can rise no further. Otherwise a new ACTIVE copy
of the slot is taken under the next generation and the former ACTIVE copy becomes RETIRING, or is discarded at once if
no unreleased block whose analysis has started carries its generation. RETIRING_DISCARD of a lane none of whose unreleased
blocks carries the RETIRING copy's generation discards the copy and changes nothing else. -/
def Obligations.RefreshAndRetiringCopies : Prop :=
  (∀ (s : State) (p : Port) (tag : Half) (lane slot : Byte) (rest : List Entry),
     s.offers p (.whole tag lane (.refresh slot)) rest →
     let refused := fun (st : Status) =>
       exec (.refresh p tag lane slot) s = .next ((s.took p rest).replied p tag lane st
         (0x32#8 :: List.replicate 5 0#8))
     (5 < lane.toNat ∨ 31 < slot.toNat → refused .range) ∧
     ∀ (L : LaneId) (n : Fin 32), lane.toNat = L.val → slot.toNat = n.val →
       let l := s.lane L
       (l.state = .closed → refused .nolane) ∧
       (l.state ≠ .closed → l.retiring ≠ none → refused .busy) ∧
       ∀ w : WorkingCopy, l.active = some w → l.state ≠ .closed → l.retiring = none →
         (4294967295 ≤ w.generation → refused .range) ∧
         (w.generation < 4294967295 →
           let carried := ∃ j, l.oldest ≤ j ∧ j < l.oldest + l.ring.length ∧ l.start + 256 * j < l.analysis ∧
             (s.store.checkpoint (l.slotOf j)).latch.generation = w.generation
           let taken := fun (retiring : Option WorkingCopy) (flag : Byte) =>
             exec (.refresh p tag lane slot) s = .next (((s.took p rest).setLane L
               { l with active := some ⟨s.library[n.val], w.generation + 1, n.val⟩, retiring := retiring }).replied p
               tag lane .done (0x32#8 :: beBytes 4 (w.generation + 1) ++ [flag]))
           (carried → taken (some w) 1#8) ∧ (¬ carried → taken none 0#8))) ∧
  (∀ (s : State) (L : LaneId) (w : WorkingCopy),
     let l := s.lane L
     l.retiring = some w →
     (∀ j, l.oldest ≤ j → j < l.oldest + l.ring.length → l.start + 256 * j < l.analysis →
       (s.store.checkpoint (l.slotOf j)).latch.generation ≠ w.generation) →
     exec (.retiringDiscard L) s =
       .next (({ s with events := s.events + 1 } : State).setLane L { l with retiring := none }))

/-! ### Perforation lines (Chapter 6) -/

/-- R111, R112, R185: TRANSPORT SETUP of a line above 3, or with the report-only flag clear and an undefined enable or
sense, is refused with RANGE and changes nothing. Report-only changes nothing. Otherwise Tc and Tl are brought into
range, CLAMPED where one was, and the settings take effect by the line's state and the enable carried. The answer is the
report of the line after the request, its 23 bytes field by field: state, P_s, reference, silence base, tick counter, recent
periods, current and pending n, Tc and Tl, and the absence flags. Two clauses are the model's reading (assumption log 9): that a Tc and Tl equal to the
current pair cancel a pending one, and that enable off on an enabled line makes the carried n, Tc and Tl current, where
R112 speaks of the pending ones. -/
def Obligations.TransportSetupSetsTheLine : Prop :=
  ∀ (s : State) (p : Port) (tag : Half) (lane : Byte) (a : TransportArgs) (rest : List Entry),
    s.offers p (.whole tag lane (.transportSetup a)) rest →
    let refused :=
      exec (.transportSetup p tag lane a) s = .next ((s.took p rest).replied p tag lane .range
        (0x20#8 :: List.replicate 22 0#8))
    (3 < a.line.toNat → refused) ∧
    ∀ k : LineId, a.line.toNat = k.val →
      let report := fun (l : Line) =>
        [0x20#8, BitVec.ofNat 8 k.val, l.state.byte] ++ beBytes 3 l.ps ++ beBytes 3 (l.reference.elim 0 BitVec.toNat) ++
          beBytes 3 l.silence.toNat ++ beBytes 3 s.tick.toNat ++
          [BitVec.ofNat 8 l.recent.length, BitVec.ofNat 8 l.n, BitVec.ofNat 8 (l.nPending.getD 0), BitVec.ofNat 8 l.tc,
            BitVec.ofNat 8 (l.tPending.elim 0 Prod.fst), BitVec.ofNat 8 l.tl, BitVec.ofNat 8 (l.tPending.elim 0 Prod.snd),
            BitVec.ofNat 8 ((if l.reference = none then 1 else 0) + (if l.nPending = none then 2 else 0) +
              if l.tPending = none then 4 else 0)]
      (a.report ≠ 0#8 → exec (.transportSetup p tag lane a) s =
        .next ((s.took p rest).replied p tag lane .done (report (s.line k)))) ∧
      (a.report = 0#8 → 1 < a.enable.toNat ∨ 1 < a.sense.toNat → refused) ∧
      (a.report = 0#8 → a.enable.toNat ≤ 1 → a.sense.toNat ≤ 1 →
        let l := s.line k
        let sense : Sense := if a.sense = 0#8 then .rising else .falling
        let n := a.n.toNat
        let tc := max 1 (min 254 a.tc.toNat)
        let tl := max (tc + 1) (max 2 a.tl.toNat)
        let after : Line :=
          if l.enable = true then
            if a.enable = 1#8 then
              { l with
                sense := sense
                reference := if sense = l.sense then l.reference else none
                recent := if sense = l.sense then l.recent else []
                nPending := if n = l.n then none else some n
                tPending := if tc = l.tc ∧ tl = l.tl then none else some (tc, tl) }
            else
              { l with
                state := .disabled
                enable := false
                sense := sense
                n := n
                nPending := none
                tc := tc
                tl := tl
                tPending := none
                prescaler := 0
                settled := none
                run := 0
                reference := none
                recent := []
                ps := 0
                coastEdge := false
                sampled := false }
          else if a.enable = 1#8 then
            { l with
              state := .searching
              enable := true
              sense := sense
              n := n
              nPending := none
              tc := tc
              tl := tl
              tPending := none
              prescaler := 0
              settled := none
              run := 0
              reference := none
              recent := []
              ps := 0
              silence := s.tick
              coastEdge := false
              sampled := false }
          else { l with sense := sense, n := n, nPending := none, tc := tc, tl := tl, tPending := none }
        exec (.transportSetup p tag lane a) s = .next (((s.took p rest).setLine k after).replied p tag lane
          (if tc = a.tc.toNat ∧ tl = a.tl.toNat then .done else .clamped) (report after)))

/-- R109, and the model's choice (assumption log 2): a command of a line that names tick t lets the counter run on to t,
and then reads t; the store, the engine, the library, the ports' requests, answers, flow lists and settings, and each
lane but for its counters stand as they were. -/
def Obligations.LineCommandsRunTheCounterToTheirTick : Prop :=
  ∀ (s : State) (k : LineId) (t : Tick) (level : Level) (c : Instr),
    (c = .perforationEdge k t ∨ c = .coastTimeout k t ∨ c = .lostTimeout k t ∨ c = .searchTimeout k t ∨
      c = .filterSample k t level) →
    ∃ u : State, exec c s = .next u ∧ u.tick = t ∧ u.store = s.store ∧ u.engine = s.engine ∧ u.library = s.library ∧
      u.pending = s.pending ∧
      (∀ p, u.port p = { s.port p with entries := (u.port p).entries }) ∧
      ∀ L, u.lane L = { s.lane L with counters := (u.lane L).counters }

/-- R115, R116, R117, R119, R122: an edge reported on line k at tick t, the line standing at t as `l`. A DISABLED line takes
none. The first edge in COAST, or one with no reference, becomes the reference without a period; a period below 4096
discards the edge; another is accepted. In SEARCHING it joins the agreeing run, whose third period makes the line
TRACKING with that P_s, or begins the run again; in TRACKING and COAST it smooths P_s by a quarter, rounded down, and COAST
becomes TRACKING. Every accepted edge becomes the reference and the silence base, and makes a pending Tc and Tl current.
Entering TRACKING raises LINE TRACKING, and nothing else changes. That the counter first runs on to t, and that the row
takes the filter's report as given, is the model's choice (assumption log 2). -/
def Obligations.PerforationEdgeIsCaptured : Prop :=
  ∀ (s : State) (k : LineId) (t : Tick),
    let u := s.runTo t
    let l := u.line k
    let accepted : Line := { l with
      reference := some t
      silence := t
      tc := l.tPending.elim l.tc Prod.fst
      tl := l.tPending.elim l.tl Prod.snd
      tPending := none }
    let becomes := fun (m : Line) => exec (.perforationEdge k t) s = .next (u.setLine k m)
    let locks := fun (m : Line) => exec (.perforationEdge k t) s = .next ((u.setLine k m).raiseLine k .lineTracking)
    let smooth := fun (period : Nat) => ((l.ps : Int) + ((period : Int) - (l.ps : Int)) / 4).toNat
    (l.state = .disabled → becomes l) ∧
    (l.state = .coast → l.coastEdge = false → becomes { accepted with coastEdge := true }) ∧
    (l.state ≠ .disabled → ¬(l.state = .coast ∧ l.coastEdge = false) →
      (l.reference = none → becomes accepted) ∧
      ∀ r, l.reference = some r →
        let period := (t - r).toNat
        (period < 4096 → becomes l) ∧
        (4096 ≤ period →
          (l.state = .searching →
            (l.recent = [] → becomes { accepted with recent := [period] }) ∧
            ∀ last, l.recent.getLast? = some last →
              let agrees := 8 * ((period : Int) - (last : Int)).natAbs ≤ last
              (agrees → l.recent.length = 2 → locks { accepted with state := .tracking, ps := period, recent := [] }) ∧
              (agrees → l.recent.length ≠ 2 → becomes { accepted with recent := l.recent ++ [period] }) ∧
              (¬ agrees → becomes { accepted with recent := [period] })) ∧
          (l.state = .tracking → becomes { accepted with ps := smooth period }) ∧
          (l.state = .coast →
            locks { accepted with ps := smooth period, state := .tracking, coastEdge := false })))

/-- R118, R120, R121: the timeouts of line k at tick t, the line standing at t as `l`, with Tc and Tl in units of 65,536 ticks from
the silence base. The coast timeout makes a TRACKING line COAST, P_s and the reference kept; the lost timeout makes a
COAST line SEARCHING with no reference, no periods, P_s 0 and the silence base at t; the search timeout drops a SEARCHING
line's reference and periods. The first two count on the open lanes bound to the line and raise their notice. A timeout
that is not due at t does not take place (the model's choice, assumption log 2). -/
def Obligations.LineTimeoutsExpire : Prop :=
  ∀ (s : State) (k : LineId) (t : Tick),
    let u := s.runTo t
    let l := u.line k
    let at_ := fun (units : Nat) => l.silence + BitVec.ofNat 24 (units * 65536) = t
    let restarted : Line := { l with reference := none, recent := [], silence := t }
    exec (.coastTimeout k t) s = .next (
      if l.state = .tracking ∧ at_ l.tc then
        ((u.setLine k { l with state := .coast, coastEdge := false }).countLine k .coast).raiseLine k .lineCoast
      else u) ∧
    exec (.lostTimeout k t) s = .next (
      if l.state = .coast ∧ at_ l.tl then
        ((u.setLine k { restarted with state := .searching, ps := 0, coastEdge := false }).countLine k .lost).raiseLine k
          .lineLost
      else u) ∧
    exec (.searchTimeout k t) s = .next (if l.state = .searching ∧ at_ l.tl then u.setLine k restarted else u)

/-- R121, R175: a line event counts on each open lane bound to the line and on no other, and enters a notice, toward both
ports, in the TIMING entry of each such lane with that lane's analysis point, or of the unit with the line number where
no open lane is bound to it; no other entry changes. -/
def Obligations.LineEventsReachTheBoundLanes : Prop :=
  ∀ (s : State) (k : LineId) (code : NoticeCode) (c : Ctr), code.category = 1 →
    let bound := fun (L : LaneId) => (s.lane L).state ≠ .closed ∧ (s.lane L).line = some k
    (∀ L, (bound L → ((s.countLine k c).lane L) = { s.lane L with
        counters := (s.lane L).counters.set c.index.val (min ((s.lane L).counters[c.index.val] + 1) 4294967295) }) ∧
      (¬ bound L → (s.countLine k c).lane L = s.lane L)) ∧
    s.sameButNotices (s.raiseLine k code) ∧
    ∀ p, (∀ L, bound L → ((s.raiseLine k code).port p).entries[(entryIndex 1 (some L)).val] =
          s.foldedEntry p code (some L) (s.lane L).analysis k.val) ∧
      ((∀ L, ¬ bound L) → ((s.raiseLine k code).port p).entries[13] = s.foldedEntry p code none k.val k.val) ∧
      ∀ i : Fin 42, (∀ L, bound L → i ≠ entryIndex 1 (some L)) → ((∀ L, ¬ bound L) → i.val ≠ 13) →
        ((s.raiseLine k code).port p).entries[i.val] = (s.port p).entries[i.val]

/-- R113, R114: the input of line k stands at `level` from tick t on, the line standing at t as `l`. A sample is taken there if
the line is enabled, its prescaler stands at 0 and this tick's sample is still to be taken; a pending n then becomes
current. With the settled level unknown the sample sets it; equal to it, it clears the run; opposite, it raises the
run, and the third in a row settles the new level, which is an edge, passed to period capture, where it goes the way of
the sense. That the counter first runs on to t is the model's choice (assumption log 2). -/
def Obligations.FilterSampleJudgesTheLevel : Prop :=
  ∀ (s : State) (k : LineId) (t : Tick) (level : Level),
    let u := s.runTo t
    let l : Line := { u.line k with input := level }
    let sampled : Line := { l with n := l.nPending.getD l.n, nPending := none, sampled := true }
    let becomes := fun (m : Line) => exec (.filterSample k t level) s = .next (u.setLine k m)
    (¬(l.enable = true ∧ l.prescaler = 0 ∧ l.sampled = false) → becomes l) ∧
    (l.enable = true → l.prescaler = 0 → l.sampled = false →
      (l.settled = none → becomes { sampled with settled := some level, run := 0 }) ∧
      ∀ v, l.settled = some v →
        (v = level → becomes { sampled with run := 0 }) ∧
        (v ≠ level → l.run ≠ 2 → becomes { sampled with run := l.run + 1 }) ∧
        (v ≠ level → l.run = 2 →
          let turned := u.setLine k { sampled with settled := some level, run := 0 }
          let edge := (l.sense = .rising ∧ level = .high) ∨ (l.sense = .falling ∧ level = .low)
          (¬ edge → exec (.filterSample k t level) s = .next turned) ∧
          (edge → exec (.filterSample k t level) s = .next (turned.captureEdge k t))))

/-! ### The outbound arbiter (Chapter 9, 9.3) and delivery -/

/-- R161, R162, R22, R61, R167, R168, R175, R176: on a link that is DOWN the arbiter takes nothing. On one that is UP it
takes the oldest flow entry; with none, the oldest RESPONSE; with neither, the unmasked pending notice of the earliest
order, the first in the table where orders agree; with none of these, what the first presenting lane after the lane-data
pointer presents, the pointer's own lane last; and nothing if no lane presents. Only an open lane whose sink the port is,
with its link UP and delivery enabled, presents: a LOG frame while one waits; otherwise the RESTORED frame of its oldest
unreleased block while that block is RENDERED and the D blocks after it have each been rendered at least once, or the lane
is DRAINING. -/
def Obligations.ArbiterTakesTheFirstClass : Prop :=
  (∀ (s : State) (p : Port),
     let q := s.port p
     let candidate := fun (i : Fin 42) (e : NoticeEntry) =>
       q.entries[i.val] = some e ∧ q.masks[i.val / 7]'(by omega) = false
     let quiet := q.link = .up ∧ q.flow = [] ∧ q.answers = [] ∧ ∀ i e, ¬ candidate i e
     (q.link = .down → s.chosen p = none) ∧
     (∀ e rest, q.link = .up → q.flow = e :: rest → s.chosen p = some (.flow e)) ∧
     (∀ r rest, q.link = .up → q.flow = [] → q.answers = r :: rest → s.chosen p = some (.response r)) ∧
     (∀ i e, q.link = .up → q.flow = [] → q.answers = [] → candidate i e →
       (∀ j f, candidate j f → e.order < f.order ∨ (e.order = f.order ∧ i ≤ j)) → s.chosen p = some (.notice i e)) ∧
     (∀ (n : Fin 6) c, quiet → s.presented p (q.pointer + 1 + n) = some c →
       (∀ m : Fin 6, m < n → s.presented p (q.pointer + 1 + m) = none) → s.chosen p = some c) ∧
     (quiet → (∀ L, s.presented p L = none) → s.chosen p = none)) ∧
  (∀ (s : State) (p : Port) (L : LaneId),
     let l := s.lane L
     let open_ := l.state ≠ .closed ∧ l.sink = p ∧ (s.port p).link = .up ∧ (s.port p).delivery = true
     let offered := (l.block l.oldest).state = .rendered ∧
       (l.state = .draining ∨ ∀ i, i < l.hold → (l.block (l.oldest + 1 + i)).rendered = true)
     (s.presented p L = some (.log L) ↔ open_ ∧ l.logQueue ≠ []) ∧
     (s.presented p L = some (.restored L) ↔ open_ ∧ l.logQueue = [] ∧ offered) ∧
     (s.presented p L = none ↔ ¬ open_ ∨ (l.logQueue = [] ∧ ¬ offered)))

/-- R158, R159, R163, R164, R176, R186: the taking of a flow entry, of a RESPONSE and of a notice. Each sends its frame whole and
leaves its class: the RESPONSE of the request in progress ends it, one of a parked request does not; the notice's entry
clears. Nothing else changes. -/
def Obligations.FlowResponseAndNoticeAreTaken : Prop :=
  ∀ (s : State) (p : Port),
    let t : State := { s with events := s.events + 1 }
    let q := s.port p
    (∀ e, s.chosen p = some (.flow e) → exec (.flowFrameTaken p) s = .next (t.setPort p
      { q with
        flow := q.flow.tail
        sent := q.sent ++ [{
          kind := if e.hold then .hold else .go
          lane := laneByte e.lane
          flags := 0#8
          code := 0#8
          tag := 0#16
          payload := beBytes 5 e.fill }] })) ∧
    (∀ r, s.chosen p = some (.response r) → exec (.responseTaken p) s = .next (t.setPort p
      { q with
        answers := q.answers.tail
        inProgress := if r.ofParked then q.inProgress else none
        sent := q.sent ++ [{
          kind := .response
          lane := r.lane
          flags := 0#8
          code := r.status.byte
          tag := r.tag
          payload := r.payload }] })) ∧
    (∀ i e, s.chosen p = some (.notice i e) → exec (.noticeTaken p) s = .next (t.setPort p
      { q with
        entries := q.entries.set i.val none
        sent := q.sent ++ [{
          kind := .notice
          lane := if i.val % 7 = 6 then 0xFF#8 else BitVec.ofNat 8 (i.val % 7)
          flags := 0#8
          code := e.code.byte
          tag := 0#16
          payload := [BitVec.ofNat 8 (i.val / 7 + 1), BitVec.ofNat 8 e.count] ++ beBytes 5 e.pos ++
            [BitVec.ofNat 8 e.detail] }] }))

/-- R23, R59 to R61, R63, R82, R162, R19, R7, R181, R182, R186: the release of the oldest unreleased block k of lane L, when its
RESTORED frame is the arbiter's choice. On any lane the frame is sent whole with k's words as they stand, and the pointer
becomes L. On an ACTIVE lane the release point rises by k's length and the count of blocks released by one. With its landing
buffer empty, k's slot loses its rendered-at-least-once flag and its mark; the records that touch k are FROZEN, and those
whose end lies in k are completed: with log enable on they are queued as LOG frames of 16, the last of 1 to 16, each but the
last with its more-follows flag set; with it off they are freed. A new entry joins the grade window, naming k and holding k's
unlisted tally, the oldest of 17 leaves, and each completed record adds one to the entry of the block that holds its start;
the grade is that of the window's count, and GRADE is raised toward both ports where it changed. The reservations on k alone
are lost; and where the fill point waited for k's slot, the points in their order (R12), the slot is FILLING again, the lane is
no longer held, and a held lane's GO is entered (log 5). On a DRAINING lane whose final block k is, every record that touches k
is completed, one that runs on past the fill point too, window and grade as before: the lane waits for its LOG frames, or, with
none to wait for, its drain is complete in the same event (log 5): it is CLOSED, LANE DRAINED is raised, and its parked drain
is answered DONE. -/
def Obligations.ReleaseHandsOverTheOldestBlock : Prop :=
  ∀ (s : State) (p : Port) (L : LaneId), s.chosen p = some (.restored L) →
    let l := s.lane L
    let k := l.oldest
    let before : State := { s with events := s.events + 1 }
    let completed := (l.list.filter fun r => decide (l.firstOf k ≤ r.last) && decide (r.last ≤ l.lastOf k))
    let frozen := l.list.map fun r =>
      if r.state = .live ∧ r.start ≤ l.lastOf k ∧ l.firstOf k ≤ r.last then { r with state := .frozen } else r
    let cutFrom := fun (frames : List LogFrame) (done : List Record) =>
      frames.flatMap LogFrame.starts = done.map Record.start ∧
      ∀ i f, frames[i]? = some f →
        f.first = l.firstOf k ∧ 1 ≤ f.starts.length ∧ f.starts.length ≤ 16 ∧ (f.more = true ↔ i + 1 < frames.length) ∧
          (i + 1 < frames.length → f.starts.length = 16)
    let joined := l.window ++ [{ block := k, count := (l.block k).tally }]
    let windowAfter := fun (done : List Record) =>
      (if 16 < joined.length then joined.tail else joined).map fun e =>
        { e with count := e.count + (done.filter fun r => (r.start - l.start) / 256 == e.block).length }
    ∃ t : State, exec (.release p) s = .next t ∧
      (t.port p).sent = (s.port p).sent ++ [{
        kind := .restored
        lane := laneByte L
        flags := 0#8
        code := 0#8
        tag := 0#16
        payload := beBytes 4 (l.firstOf k) ++ beBytes 2 (l.lengthOf k) ++ [l.width.byte] ++
          (List.range (l.lengthOf k)).flatMap fun i =>
            wordBytes l.width (s.port p).order (deliveredWord l.width l.rounding
              (Cells.read 0 (l.cell (l.firstOf k + i)) s.store.restored)) }] ∧
      (t.port p).pointer = L ∧ (∀ q, q ≠ p → (t.port q).sent = (s.port q).sent) ∧
      (l.state = .active →
        (t.lane L).release = l.release + l.lengthOf k ∧
        (t.lane L).counters[2] = min (l.counters[2] + 1) 4294967295 ∧
        (l.landing = [] → l.final = none →
          ((t.lane L).blocks.getD (k % l.ring.length) {}).rendered = false ∧
          ((t.lane L).blocks.getD (k % l.ring.length) {}).mark = none ∧
          (t.lane L).list = (if l.log then frozen else
            frozen.filter fun r => !(decide (l.firstOf k ≤ r.last) && decide (r.last ≤ l.lastOf k))) ∧
          (∃ frames, (t.lane L).logQueue = l.logQueue ++ frames ∧ cutFrom frames (if l.log then completed else [])) ∧
          (t.lane L).window = windowAfter completed ∧
          (let count := ((t.lane L).window.map WindowEntry.count).sum
           (t.lane L).grade = (if count ≤ l.activeProfile.g1 then Grade.A else if count ≤ l.activeProfile.g2 then .B
             else if count ≤ l.activeProfile.g3 then .C else .D)) ∧
          (∀ q, (t.port q).reservation = Reservation.kept (s.port q).reservation fun v => v == ⟨L, l.firstOf k⟩) ∧
          (∀ q, (t.port q).entries[(entryIndex 4 (some L)).val] =
            if (t.lane L).grade = l.grade then (s.port q).entries[(entryIndex 4 (some L)).val]
            else before.foldedEntry q .grade (some L) (l.release + l.lengthOf k) (t.lane L).grade.number) ∧
          (l.ringAsOpened → l.start ≤ l.release → l.fill = l.firstOf (k + l.ring.length) → l.fill < 4294967296 →
            (t.lane L).block (k + l.ring.length) = { state := .filling } ∧ (t.lane L).held = false ∧
            (l.held = true → (s.port l.source).link = .up →
              { lane := L, hold := false, fill := l.fill } ∈ (t.port l.source).flow)))) ∧
      (l.state = .draining → l.landing = [] → l.final = some (l.firstOf k) → l.release = l.firstOf k →
        l.firstOf k < l.fill → l.finished = true →
        let last := l.list.filter fun r =>
          decide (l.firstOf k ≤ r.last) && (decide (r.last ≤ l.lastOf k) || decide (r.start ≤ l.lastOf k))
        (∀ q, (t.port q).entries[(entryIndex 4 (some L)).val] =
          if (t.lane L).grade = l.grade then (s.port q).entries[(entryIndex 4 (some L)).val]
          else before.foldedEntry q .grade (some L) l.fill (t.lane L).grade.number) ∧
        (l.log = true → last ≠ [] →
          (t.lane L).state = .draining ∧ (t.lane L).release = l.fill ∧ (t.lane L).list = frozen ∧
          cutFrom (t.lane L).logQueue last ∧ (t.lane L).window = windowAfter last) ∧
        (l.log = false ∨ last = [] →
          t.lane L = { Lane.reset with
            counters := l.counters.set 2 (min (l.counters[2] + 1) 4294967295)
            grade := (t.lane L).grade
            window := windowAfter last
            everOpened := true } ∧
          ∀ q, (t.port q).entries[(entryIndex 0 (some L)).val] =
              before.foldedEntry q .laneDrained (some L) l.fill 0 ∧
            (t.port q).answers = (s.port q).answers ++
              ((s.port q).parked.filter fun x => x.lane == L && x.kind == .drain).map fun x =>
                { tag := x.tag, lane := laneByte x.lane, status := .done, payload := [0x03#8], ofParked := true }))

/-- R62, R61, R186: the taking of the oldest LOG frame of lane L, when it is the arbiter's choice, sends the frame with its records
and more-follows flag, makes L the lane-data pointer, and on an ACTIVE lane with an empty landing buffer removes the frame
from the log queue and its records from the Repair List, which frees them; no other lane's records change. -/
def Obligations.LogFrameTakenFreesItsRecords : Prop :=
  ∀ (s : State) (p : Port) (L : LaneId) (f : LogFrame) (rest : List LogFrame), s.chosen p = some (.log L) →
    (s.lane L).logQueue = f :: rest →
    let l := s.lane L
    ∃ t : State, exec (.logFrameTaken p) s = .next t ∧
      (t.port p).sent = (s.port p).sent ++ [{
        kind := .log
        lane := laneByte L
        flags := if f.more then 2#8 else 0#8
        code := 0#8
        tag := 0#16
        payload := beBytes 4 f.first ++ [BitVec.ofNat 8 f.starts.length] ++
          (f.starts.filterMap fun st => l.list.find? fun r => r.start == st).flatMap Record.wire }] ∧
      (t.port p).pointer = L ∧
      (l.state = .active → l.landing = [] →
        (t.lane L).logQueue = rest ∧ (t.lane L).list = l.list.filter fun r => !f.starts.contains r.start) ∧
      ∀ M, M ≠ L → (t.lane M).list = (s.lane M).list ∧ (t.lane M).logQueue = (s.lane M).logQueue

/-! ### The Render Engine (Chapter 5) -/

/-- R21, R90, R12: a block is startable exactly when it is ANALYSED or DIRTY; the render point has reached it, so the block
before it has been rendered; the eight positions after it have been analysed, or the lane is DRAINING, it is wholly
analysed, its final block fixed and its analyser finished; no OPEN record and no open unlisted span starts at or before
its last position; and no APPLIED record that touches it holds an absent anchor. -/
def Obligations.StartableBlocks : Prop :=
  ∀ (l : Lane) (j : Nat), l.startable j = true ↔
    l.state ≠ .closed ∧ ((l.block j).state = .analysed ∨ (l.block j).state = .dirty) ∧ l.firstOf j ≤ l.render ∧
    (l.lastOf j + 9 ≤ l.analysis ∨
      (l.state = .draining ∧ l.lastOf j < l.analysis ∧ l.final ≠ none ∧ l.finished = true)) ∧
    (∀ r ∈ l.list, r.state = .opened → l.lastOf j < r.start) ∧
    (∀ sp, l.span = some sp → sp.form = .unlisted → l.lastOf j < sp.start) ∧
    (∀ start length, l.piece = some (.unlisted start length) → l.lastOf j < start) ∧
    ∀ r ∈ l.list, r.disp = .applied → r.start ≤ l.lastOf j → l.firstOf j ≤ r.last → r.before ≠ none ∧ r.after ≠ none

/-- R91, R92, R93: with the engine IDLE, RENDER_START grants the first lane after the grant pointer, its own lane last,
that has a startable block, and takes that lane's oldest startable DIRTY block, or with none its oldest startable block.
The block becomes RENDERING with no touch mark, and the render in flight holds its kind, mark, raw samples, APPLIED records,
latch, working copy and the filter state of its checkpoint. Nothing else changes. Two clauses rest on the model's choices:
the grant that ends every event which can make a block startable is the same (assumption log 5), and does nothing while a
render is in flight; and a RENDER_START with no startable block in any lane leaves the state as it was (assumption log 3). -/
def Obligations.RenderStartGrantsAndTakesTheSnapshot : Prop :=
  (∀ (s : State) (n : Fin 6) (j : Nat), s.engine.inFlight = none →
     let L : LaneId := s.engine.pointer + 1 + n
     let l := s.lane L
     let within := fun (i : Nat) => l.oldest ≤ i ∧ i < l.oldest + l.ring.length
     let oldestOf := fun (c : Nat → Prop) => within j ∧ c j ∧ ∀ i, within i → c i → j ≤ i
     let startableDirty := fun (i : Nat) => l.startable i = true ∧ (l.block i).state = .dirty
     (∀ m : Fin 6, m < n → ∀ i, ((s.lane (s.engine.pointer + 1 + m)).oldest ≤ i ∧
         i < (s.lane (s.engine.pointer + 1 + m)).oldest + (s.lane (s.engine.pointer + 1 + m)).ring.length) →
       (s.lane (s.engine.pointer + 1 + m)).startable i = false) →
     (oldestOf startableDirty ∨
       ((∀ i, within i → ¬ startableDirty i) ∧ oldestOf fun i => l.startable i = true)) →
     let b := l.block j
     let c := s.store.checkpoint (l.slotOf j)
     exec .renderStart s = .next { s with
       events := s.events + 1
       lanes := s.lanes.set L.val (l.setBlock j { b with state := .rendering, touch := none })
       engine := ⟨L, some {
         lane := L
         block := j
         first := l.firstOf j
         length := l.lengthOf j
         kind := if b.state = .dirty then .rerender else .first
         mark := if b.state = .dirty then b.mark else none
         abandoned := false
         raw := (List.range (l.lengthOf j)).map fun i => Cells.read 0 (l.cell (l.firstOf j + i)) s.store.raw
         records := (l.list.filter fun r =>
             r.disp == .applied && decide (r.start ≤ l.lastOf j) && decide (l.firstOf j ≤ r.last)).map fun r =>
           { start := r.start, length := r.length, before := r.before.getD 0, after := r.after.getD 0 }
         latch := c.latch
         profile := l.profileOf c.latch.generation
         work := c.filter }⟩ }) ∧
  (∀ s : State, (s.engine.inFlight ≠ none → s.grant = s) ∧
     ((∀ L, ∀ i, (s.lane L).oldest ≤ i → i < (s.lane L).oldest + (s.lane L).ring.length →
       (s.lane L).startable i = false) → s.grant = s ∧ exec .renderStart s = .next s) ∧
     (s.engine.inFlight = none → (∃ L i, (s.lane L).oldest ≤ i ∧ i < (s.lane L).oldest + (s.lane L).ring.length ∧
       (s.lane L).startable i = true) →
       s.grant.engine.inFlight ≠ none ∧ exec .renderStart s = .next ({ s with events := s.events + 1 } : State).grant))

/-- R99, R100, R101, R102, R107: the completion of the render in flight. An abandoned one writes nothing. Another writes the restored
samples of its positions and the next checkpoint's filter fields, unless its block is the fixed final one; sets the block
RENDERED, or DIRTY with its touch mark where one is set, and rendered at least once; raises the render point at a first
render; and at a re-render marks a rendered next block DIRTY with the render mark, or with the lower of its marks. Every
parked SYNC of the lane that is then satisfied is answered DONE. The engine is IDLE and may grant again. -/
def Obligations.RenderCompletionWritesItsResult : Prop :=
  ∀ (s : State) (r : Render), s.engine.inFlight = some r →
    let idle : State := { s with events := s.events + 1, engine := ⟨s.engine.pointer, none⟩ }
    (r.abandoned = true → exec .renderCompletion s = .next idle.grant) ∧
    (r.abandoned = false → s.storeWf →
      let l := s.lane r.lane
      let ys := r.result.1
      let final := l.final = some (l.firstOf r.block)
      let address := l.cell r.first
      ∃ t : State, exec .renderCompletion s = .next t.grant ∧ t.engine = ⟨s.engine.pointer, none⟩ ∧
        t.lines = s.lines ∧ t.library = s.library ∧ t.tick = s.tick ∧ (∀ M, M ≠ r.lane → t.lane M = s.lane M) ∧
        t.store.raw = s.store.raw ∧ t.store.missing = s.store.missing ∧
        (∀ i y, ys[i]? = some y → Cells.read 0 (address + i) t.store.restored = y) ∧
        (∀ a, (a < address ∨ address + ys.length ≤ a) →
          Cells.read 0 a t.store.restored = Cells.read 0 a s.store.restored) ∧
        (∀ n, t.store.checkpoint n =
          if ¬ final ∧ n = l.slotOf (r.block + 1) then
            { latch := (s.store.checkpoint n).latch, filter := r.result.2 }
          else s.store.checkpoint n) ∧
        t.lane r.lane = { l with
          render := if r.kind = .first then l.render + r.length else l.render
          blocks := (t.lane r.lane).blocks } ∧
        (2 ≤ l.ring.length → l.blocks.length = l.ring.length →
          (t.lane r.lane).block r.block = (match (l.block r.block).touch with
            | none => { l.block r.block with state := .rendered, rendered := true, mark := none, touch := none }
            | some m => { l.block r.block with state := .dirty, rendered := true, mark := some m, touch := none }) ∧
          (t.lane r.lane).block (r.block + 1) =
            (let b := l.block (r.block + 1)
             if r.kind = .rerender ∧ ¬ final ∧ l.oldest ≤ r.block + 1 ∧ r.block + 1 < l.oldest + l.ring.length ∧
               b.rendered = true then
               match b.state with
               | .rendered => { b with state := .dirty, mark := some (r.mark.getD 0) }
               | .dirty => { b with mark := some (b.mark.elim (r.mark.getD 0) fun x => min x (r.mark.getD 0)) }
               | .free => b
               | .filling => b
               | .analysed => b
               | .rendering => b
             else b) ∧
          ∀ i, i % l.ring.length ≠ r.block % l.ring.length → i % l.ring.length ≠ (r.block + 1) % l.ring.length →
            (t.lane r.lane).block i = l.block i) ∧
        ∀ q, (t.port q).parked = (s.port q).parked.filter (fun k => !k.syncReady r.lane (t.lane r.lane)) ∧
          (t.port q).answers = (s.port q).answers ++
            ((s.port q).parked.filter fun k => k.syncReady r.lane (t.lane r.lane)).map fun k =>
              { tag := k.tag, lane := laneByte k.lane, status := .done, payload := k.donePayload, ofParked := true })

/-! ### Events of lanes -/

/-- R87, R159: SYNC_ANSWER answers DONE, carrying its s, every parked SYNC on the lane that no DIRTY or RENDERING block of the lane
holds back, each on its own port and in the order of parking; it is then parked no longer. Nothing else changes. -/
def Obligations.SyncAnswerAnswersTheSatisfied : Prop :=
  ∀ (s : State) (L : LaneId),
    let l := s.lane L
    let low := fun (n : Nat) (m : Option Nat) => ∃ x, m = some x ∧ x ≤ n
    let waits := fun (n : Nat) => ∃ j, l.oldest ≤ j ∧ j < l.oldest + l.ring.length ∧
      (((l.block j).state = .dirty ∧ low n (l.block j).mark) ∨
        ((l.block j).state = .rendering ∧ (low n (l.block j).mark ∨ low n (l.block j).touch)))
    let ready := fun (k : Parked) => k.syncReady L l
    (∀ k : Parked, ready k = true ↔ k.lane = L ∧ ∃ n, k.kind = .sync n ∧ ¬ waits n) ∧
    ((∃ p, ∃ k ∈ (s.port p).parked, ready k = true) →
      ∃ t : State, exec (.syncAnswer L) s = .next t ∧
        t = { s with events := s.events + 1, portA := t.portA, portB := t.portB } ∧
        ∀ p, t.port p = { s.port p with
          parked := (s.port p).parked.filter fun k => !ready k
          answers := (s.port p).answers ++ ((s.port p).parked.filter ready).map fun k =>
            { tag := k.tag
              lane := laneByte k.lane
              status := .done
              payload := 0x14#8 :: beBytes 4 (match k.kind with
                | .sync n => n
                | .drain => 0)
              ofParked := true } })

/-- R17, R19, R14, R24, R163: GO of a held, ACTIVE lane whose landing buffer is empty and which has a slot for its next
position: the lane is no longer held, its count returns to 0, and a GO with the fill point joins the flow list of its source
port in place of any entry of the lane, unless that link is DOWN; nothing else changes. LANDING_PLACEMENT on a held, ACTIVE
lane whose one landed frame, all of whose samples are valid, begins at the fill point and does not complete the block: every
sample is placed and the landing buffer is empty. Where a next position remains, the lane is no longer held, its count is 0,
and with its source link UP a GO with the new fill point joins the flow list in place of any entry of the lane; that the GO
comes inside the same event is the model's reading (assumption log 5). Where the fill point has reached 4,294,967,296, no GO
is sent and the lane stays held (the model's reading, assumption log 18). -/
def Obligations.LandingPlacementAndGo : Prop :=
  (∀ (s : State) (L : LaneId),
     let l := s.lane L
     let b := (l.block (l.ord l.fill)).state
     l.held = true → l.state = .active → l.landing = [] → l.fill < 4294967296 → l.final = none →
     l.inRing (l.ord l.fill) = true → (b = .filling ∨ b = .free) →
     exec (.go L) s = .next (({ s with events := s.events + 1 } : State).setLane L
         { l with held := false, afterHold := 0 } |>.setPort l.source
       { s.port l.source with
         flow := if (s.port l.source).link = .up then
             ((s.port l.source).flow.filter fun e => e.lane != L) ++ [{ lane := L, hold := false, fill := l.fill }]
           else (s.port l.source).flow })) ∧
  (∀ (s : State) (L : LaneId) (xs : List Int) (resumed : Bool), s.storeWf →
     let l := s.lane L
     let n := xs.length
     l.landing = [{ start := l.fill, samples := xs.map some, resumed := resumed }] → l.held = true →
     ({ l with held := false, landing := [] } : Lane).takesWithinBlock n →
     ∃ t : State, exec (.landingPlacement L) s = .next t.grant ∧
       t.lane L = { l with
         landing := []
         fill := l.fill + n
         held := decide (l.fill + n = 4294967296)
         afterHold := if l.fill + n = 4294967296 then l.afterHold else 0
         counters := (t.lane L).counters
         retiring := (t.lane L).retiring } ∧
       (0 < n → (t.lane L).counters = l.counters.set 0 (min (l.counters[0] + n) 4294967295)) ∧
       (∀ M, M ≠ L → t.lane M = s.lane M) ∧ t.engine = s.engine ∧
       (l.fill + n < 4294967296 → ∀ q, t.port q = { s.port q with
         flow := if q = l.source ∧ (s.port q).link = .up then
             ((s.port q).flow.filter fun e => e.lane != L) ++ [{ lane := L, hold := false, fill := l.fill + n }]
           else (s.port q).flow }) ∧
       (l.fill + n = 4294967296 → ∀ q, t.port q = s.port q) ∧
       (∀ i x, xs[i]? = some x →
         Cells.read 0 (l.cell (l.fill + i)) t.store.raw = x ∧
         Cells.read false (l.cell (l.fill + i)) t.store.missing = false) ∧
       ∀ a, (∀ i, i < n → a ≠ l.cell (l.fill + i)) →
         Cells.read 0 a t.store.raw = Cells.read 0 a s.store.raw ∧
         Cells.read false a t.store.missing = Cells.read false a s.store.missing)

/-- R6, R46, R63, R34, R35: FINAL_BLOCK of a DRAINING lane with an empty landing buffer that has placed a position and not
released all of them: the final block is the block at the fill point, or, where the fill point lies on a block boundary, the
block before it, and a FILLING slot of the block at the boundary, which holds no placed position, returns to FREE. Nothing else
changes, but that the engine, if IDLE, may grant; with the analysis point at the fill point the finishing of the analysis takes
place in the same event (log 5). DRAIN_ANALYSIS_FINISH of a DRAINING lane whose final block is fixed and whose analysis point has
reached its fill point: a GROWING span closes no later than the last placed position, a CLICK longer than its burst limit
becoming a BURST; the span's and the current piece's records take 0 as after-anchor and become LIVE; every anchor still absent
takes 0, and every anchor held stands; no record stays OPEN. An unlisted span or piece is written with 0 beyond it. The span and
the piece are gone; the four points, the edit number, the dispositions and every other lane stand, and of the ports only
reservations can go. The engine, if IDLE, may then grant. -/
def Obligations.DrainFixesTheFinalBlockAndFinishes : Prop :=
  (∀ (s : State) (L : LaneId),
     let l := s.lane L
     let j := l.ord l.fill
     let boundary := (l.fill - l.start) % 256 = 0
     let fixed : State := s.setLane L { l with
       final := some (l.start + 256 * ((l.fill - 1 - l.start) / 256))
       blocks := if boundary ∧ l.inRing j = true ∧ (l.block j).state = .filling then (l.setBlock j {}).blocks
         else l.blocks }
     l.state = .draining → l.landing = [] → l.final = none → l.start < l.fill → l.release < l.fill →
     (∃ t : State, exec (.finalBlock L) s = .next t.grant ∧ (t.lane L).fill = l.fill ∧ (t.lane L).state = .draining ∧
       (t.lane L).final = some (l.start + 256 * ((l.fill - 1 - l.start) / 256)) ∧
       (boundary → l.inRing j = true → (l.block j).state = .filling → l.blocks.length = l.ring.length →
         (t.lane L).block j = {})) ∧
     (l.retiring = none → ¬(l.analysis = l.fill ∧ l.finished = false) →
       exec (.finalBlock L) s = .next ({ fixed with events := s.events + 1 } : State).grant) ∧
     (l.retiring = none → l.analysis = l.fill → l.finished = false →
       exec (.finalBlock L) s = exec (.drainAnalysisFinish L) fixed)) ∧
  (∀ (s : State) (L : LaneId),
     let l := s.lane L
     let before : State := { s with events := s.events + 1 }
     let spans := fun (r : Record) (sp : Span) => l.span = some sp ∧ sp.form = .listed ∧ sp.start = r.start
     let owned := fun (r : Record) => (∃ sp, spans r sp) ∨ l.piece = some (.listed r.start)
     let last := fun (sp : Span) => if sp.phase = .growing then min sp.last (l.fill - 1) else sp.last
     l.state = .draining → l.final ≠ none → l.analysis = l.fill → l.finished = false →
     ∃ t : State, exec (.drainAnalysisFinish L) s = .next t.grant ∧
       t.lane L = { l with
         finished := true
         span := none
         piece := none
         runEnded := if l.piece = none then l.runEnded else false
         list := (t.lane L).list
         counters := (t.lane L).counters
         blocks := (l.blockEnd (l.fill - 1)).blocks } ∧
       (t.lane L).list.length = l.list.length ∧
       (∀ (i : Nat) (r : Record), l.list[i]? = some r → ∃ r' : Record, (t.lane L).list[i]? = some r' ∧
         r'.start = r.start ∧ r'.origin = r.origin ∧ r'.disp = r.disp ∧ r'.ratio = r.ratio ∧
         r'.before = some (r.before.getD 0) ∧
         (owned r → r'.after = some 0 ∧ r'.state = .live) ∧
         (¬ owned r → r'.after = some (r.after.getD 0) ∧ r'.state = (if r.state = .opened then .live else r.state)) ∧
         (∀ sp, spans r sp → sp.phase = .growing →
           r'.length = last sp + 1 - sp.start ∧
           r'.kind = if r.kind = .click ∧ sp.lmax < last sp + 1 - sp.start then .burst else r.kind) ∧
         ((∀ sp, spans r sp → sp.phase ≠ .growing) → r'.length = r.length ∧ r'.kind = r.kind)) ∧
       ((∀ sp, l.span = some sp → sp.form = .listed) → (∀ start len, l.piece ≠ some (.unlisted start len)) →
         t.store = s.store) ∧
       (∀ sp, l.span = some sp → sp.form = .unlisted → (∀ start len, l.piece ≠ some (.unlisted start len)) →
         t.store = (before.writeUnlisted L sp.start (last sp + 1 - sp.start) 0).store) ∧
       (∀ start len, l.piece = some (.unlisted start len) → (∀ sp, l.span = some sp → sp.form = .listed) →
         t.store = (before.writeUnlisted L start len 0).store) ∧
       (∀ M, M ≠ L → t.lane M = s.lane M) ∧ t.engine = s.engine ∧ t.lines = s.lines ∧ t.library = s.library ∧
       t.tick = s.tick ∧ ∀ q, t.port q = { s.port q with reservation := (t.port q).reservation })

/-- R7: DRAIN_COMPLETION of a DRAINING lane whose final block has been released and whose LOG frames have been taken: the lane is
CLOSED, its slots unheld and its working copies gone, its counters, grade and window kept; each parked LANE DRAIN of the
lane is answered DONE on its port; LANE DRAINED is raised toward both ports with the release point. -/
def Obligations.DrainCompletionClosesTheLane : Prop :=
  ∀ (s : State) (L : LaneId),
    let l := s.lane L
    l.state = .draining → l.landing = [] → l.logQueue = [] → l.release = l.fill → l.final ≠ none →
    let before : State := { s with events := s.events + 1 }
    ∃ t : State, exec (.drainCompletion L) s = .next t ∧
      t.lane L = { Lane.reset with counters := l.counters, grade := l.grade, window := l.window, everOpened := true } ∧
      (∀ M, M ≠ L → (s.lane M).sameButPoolFlags (t.lane M)) ∧ t.store = s.store ∧ t.engine = s.engine ∧
      t.lines = s.lines ∧ t.library = s.library ∧ t.tick = s.tick ∧
      ∀ p, (t.port p).entries[(entryIndex 0 (some L)).val] = before.foldedEntry p .laneDrained (some L) l.release 0 ∧
        t.port p = { s.port p with
          parked := (s.port p).parked.filter fun k => !(k.lane == L && k.kind == .drain)
          answers := (s.port p).answers ++
            ((s.port p).parked.filter fun k => k.lane == L && k.kind == .drain).map fun k =>
              { tag := k.tag, lane := laneByte k.lane, status := .done, payload := [0x03#8], ofParked := true }
          flow := (s.port p).flow.filter fun e => e.lane != L
          reservation := Reservation.kept (s.port p).reservation fun v => v.lane == L
          entries := (t.port p).entries }

/-! ### The Click Analyser (Chapter 2) -/

/-- R20, R26, R123, R124: the taking of a position raises the analysis point by one and no other point. At the first position of a
block the block's checkpoint takes its latch: the state of the lane's line, or DISABLED for a lane bound to none; the
increment formed from it, the line's P_s and the ACTIVE copy; and the ACTIVE generation. Its filter fields, and every
other checkpoint, stand; off a block's first position every checkpoint stands. -/
def Obligations.AnalysisTakesOnePositionAndLatches : Prop :=
  ∀ (s : State) (L : LaneId) (w : WorkingCopy), s.storeWf →
    let l := s.lane L
    l.state ≠ .closed → l.analysis < l.fill → l.active = some w →
    let state := match l.line with
      | some k => (s.line k).state
      | none => .disabled
    let ps := match l.line with
      | some k => (s.line k).ps
      | none => 0
    let increment := match w.profile.mode with
      | .fixed => (2 * (4294967296 * w.profile.f) + 100 * l.rate.hertz) / (2 * (100 * l.rate.hertz))
      | .tracked => if state = .tracking ∨ state = .coast then
          (2 * (4294967296 * l.rate.ticks) + ps * w.profile.d) / (2 * (ps * w.profile.d))
        else 0
    ∃ t : State, exec (.analysePosition L) s = .next t ∧ (t.lane L).analysis = l.analysis + 1 ∧
      (t.lane L).fill = l.fill ∧ (t.lane L).render = l.render ∧ (t.lane L).release = l.release ∧
      ∀ n, t.store.checkpoint n =
        if (l.analysis - l.start) % 256 = 0 ∧ n = l.slotOf ((l.analysis - l.start) / 256) then
          { latch := ⟨state, increment, w.generation⟩, filter := (s.store.checkpoint n).filter }
        else s.store.checkpoint n

/-- R26 to R29, R34, R35, R43, R52: a position that is missing, or covered by a LIVE APPLIED record of the lane, suspends
detection: the suspension count becomes 0, and the history samples and the envelope stand. A valid position of a lane with an
empty Repair List and no span, its sample x: below a suspension count of 2 it enters the history untested. At 2 it is tested
under T and Emin of the copy its block carries: with m = |x − 2·x1 + x2| and E' the larger of the envelope and Emin, and
64·m not above E'·T, x enters the history, the envelope moves by (16·m − E) / 64, rounded down, and nothing is opened. An
unflagged position at the end of a GROWING span closes it: the span waits, a CLICK longer than the burst limit becomes a
BURST, a span with a record of its own is counted by that kind, and the reservations on its blocks are lost (log 12). At the position after a WAITING span's end, missing or
unflagged, the after-anchor is taken, 0 where missing: a LISTED span's record becomes LIVE with it, an UNLISTED span is
written, and the lane has no span. -/
def Obligations.UnflaggedPositionsMoveTheHistory : Prop :=
  (∀ (s : State) (L : LaneId),
     let l := s.lane L
     l.state ≠ .closed → l.analysis < l.fill →
     (s.missingAt L l.analysis = true ∨
       ∃ r ∈ l.list, r.state = .live ∧ r.disp = .applied ∧ r.start ≤ l.analysis ∧ l.analysis ≤ r.last) →
     ∃ t : State, exec (.analysePosition L) s = .next t ∧ (t.lane L).suspend = 0 ∧ (t.lane L).x1 = l.x1 ∧
       (t.lane L).x2 = l.x2 ∧ (t.lane L).envelope = l.envelope) ∧
  (∀ (s : State) (L : LaneId),
     let l := s.lane L
     let n := l.analysis
     let x := s.rawAt L n
     let generation := if (n - l.start) % 256 = 0 then l.active.elim 0 WorkingCopy.generation
       else (s.store.checkpoint (l.slotOf ((n - l.start) / 256))).latch.generation
     let profile := l.profileOf generation
     let m := (x - 2 * l.x1 + l.x2).natAbs
     s.storeWf → l.state = .active → n < l.fill → l.span = none → l.list = [] → s.missingAt L n = false →
     (l.suspend < 2 →
       ∃ t : State, exec (.analysePosition L) s = .next t.grant ∧ t.lane L = { l with
         x1 := x, x2 := l.x1, suspend := l.suspend + 1, analysis := n + 1, blocks := (l.blockEnd n).blocks }) ∧
     (l.suspend = 2 → 64 * m ≤ max l.envelope.toNat profile.emin * profile.t →
       ∃ t : State, exec (.analysePosition L) s = .next t.grant ∧ t.lane L = { l with
         x1 := x, x2 := l.x1, envelope := l.envelope + (16 * (m : Int) - l.envelope) / 64, analysis := n + 1
         blocks := (l.blockEnd n).blocks })) ∧
  (∀ (s : State) (L : LaneId) (sp : Span) (r : Record),
     let l := s.lane L
     let n := l.analysis
     let x := s.rawAt L n
     let generation := if (n - l.start) % 256 = 0 then l.active.elim 0 WorkingCopy.generation
       else (s.store.checkpoint (l.slotOf ((n - l.start) / 256))).latch.generation
     let profile := l.profileOf generation
     let m := (x - 2 * l.x1 + l.x2).natAbs
     let unflagged := l.suspend < 2 ∨ (l.suspend = 2 ∧ 64 * m ≤ max l.envelope.toNat profile.emin * profile.t)
     s.storeWf → l.state = .active → n < l.fill → l.span = some sp →
     (sp.form = .listed → l.list = [r] → r.start = sp.start → sp.last = r.last →
       (sp.phase = .growing → sp.last = n → r.state = .opened → s.missingAt L n = false → unflagged →
         let kind := if r.kind = .click ∧ sp.lmax < r.length then Kind.burst else r.kind
         ∃ t : State, exec (.analysePosition L) s = .next t.grant ∧
           (t.lane L).span = some { sp with phase := .waiting } ∧ (t.lane L).list = [{ r with kind := kind }] ∧
           (t.lane L).counters =
             (if sp.own = true ∧ kind = .click then l.counters.set 3 (min (l.counters[3] + 1) 4294967295)
              else if sp.own = true ∧ kind = .burst then l.counters.set 4 (min (l.counters[4] + 1) 4294967295)
              else l.counters) ∧
           ∀ q, t.port q = { s.port q with
             reservation := Reservation.kept (s.port q).reservation fun v =>
               v.lane == L && decide (sp.start ≤ l.lastOf (l.ord v.first)) && decide (v.first ≤ sp.last) }) ∧
       (sp.phase = .waiting → sp.last + 1 = n → l.start ≤ n → l.fill ≤ n + 256 * l.ring.length →
         s.missingAt L n = true ∨ unflagged →
         ∃ t : State, exec (.analysePosition L) s = .next t.grant ∧ (t.lane L).span = none ∧
           (t.lane L).list =
             [{ r with state := .live, after := some (if s.missingAt L n = true then 0 else x) }] ∧
           (t.lane L).counters = l.counters ∧ (t.lane L).edit = l.edit)) ∧
     (sp.form = .unlisted → sp.phase = .waiting → sp.last + 1 = n → l.start ≤ n →
       l.fill ≤ n + 256 * l.ring.length → l.list = [] → s.missingAt L n = true ∨ l.suspend < 2 →
       ∃ t : State, exec (.analysePosition L) s = .next t.grant ∧ (t.lane L).span = none ∧ (t.lane L).list = [] ∧
         t.store.missing = s.store.missing ∧
         t.store.raw = (({ s with events := s.events + 1 } : State).writeUnlisted L sp.start (sp.last + 1 - sp.start)
           (if s.missingAt L n = true then 0 else x)).store.raw))

/-- R28, R30 to R34, R36 to R39, R42, R44: a flagged sample at n. With an empty Repair List, no span and a record to be
had it opens a LISTED span from n − G, or the start position if later, to n + G, under its cap, and takes one OPEN APPLIED CLICK
record of origin DETECTOR over it, with the raw value before it as its before-anchor and the ratio of its peak; with no record
to be had the span is UNLISTED, counted, tallied and raised, or with the slot occupied TRUNCATED. Where its extent touches a
LIVE APPLIED record behind, the span merges into that record, which keeps kind and origin, gets its before-anchor again and
counts as none of the span's own. Where it touches one ahead, its record absorbs it, under the higher kind and that kind's
origin, with the larger ratio. A merge marks as R38 says. A record ahead that it may not absorb truncates it to two positions
before that record, pinned; where that is n itself, the span closes in the same taking, CLICK or BURST by its length, and is
counted; where it lies before n, the span is dropped, TRUNCATED. In a GROWING span that is not pinned a flagged
sample moves the end to n + G under the cap, and a larger peak replaces the peak and its ratio. The sample enters the history
and the envelope stands. -/
def Obligations.FlaggedSampleOpensASpan : Prop :=
  (∀ (s : State) (L : LaneId) (w : WorkingCopy),
     let l := s.lane L
     let n := l.analysis
     let x := s.rawAt L n
     let generation := if (n - l.start) % 256 = 0 then w.generation
       else (s.store.checkpoint (l.slotOf ((n - l.start) / 256))).latch.generation
     let profile := l.profileOf generation
     let m := (x - 2 * l.x1 + l.x2).natAbs
     let e := max l.envelope.toNat profile.emin
     let first := max (n - w.profile.g) l.start
     let cap := min (first + 1023) 4294967295
     let last := min (n + w.profile.g) cap
     s.storeWf → l.state = .active → n < l.fill → l.start ≤ n → n < 4294967295 → l.active = some w →
     w.profile.inRange → l.span = none → l.list = [] → s.missingAt L n = false → l.suspend = 2 →
     e * profile.t < 64 * m → s.canTake L = true →
     ∃ t : State, exec (.analysePosition L) s = .next t.grant ∧
       (t.lane L).list = [{
         start := first
         length := last + 1 - first
         kind := .click
         origin := .detector
         state := .opened
         disp := .applied
         ratio := if e = 0 then 255 else min (64 * m / e) 255
         before := some (({ s with events := s.events + 1 } : State).anchorBefore L first)
         after := none }] ∧
       (t.lane L).span = some {
         form := .listed
         phase := .growing
         start := first
         last := last
         cap := cap
         pinned := false
         lastFlag := n
         guard := w.profile.g
         lmax := w.profile.lmax
         peakM := m
         peakE := e
         opened := n
         own := true
         floorRatio := 0 } ∧
       (t.lane L).x1 = x ∧ (t.lane L).x2 = l.x1 ∧ (t.lane L).suspend = 2 ∧ (t.lane L).envelope = l.envelope ∧
       (t.lane L).analysis = n + 1 ∧ (t.lane L).counters = l.counters ∧ (t.lane L).edit = l.edit) ∧
  (∀ (s : State) (L : LaneId) (w : WorkingCopy),
     let l := s.lane L
     let before : State := { s with events := s.events + 1 }
     let n := l.analysis
     let x := s.rawAt L n
     let generation := if (n - l.start) % 256 = 0 then w.generation
       else (s.store.checkpoint (l.slotOf ((n - l.start) / 256))).latch.generation
     let profile := l.profileOf generation
     let m := (x - 2 * l.x1 + l.x2).natAbs
     let e := max l.envelope.toNat profile.emin
     let ratio := if e = 0 then 255 else min (64 * m / e) 255
     let hasRatio := fun (k : Kind) => k = .click ∨ k = .burst
     let first := max (n - w.profile.g) l.start
     let entry : Span :=
       { form := .listed
         phase := .growing
         start := first
         last := n + w.profile.g
         cap := first + 1023
         pinned := false
         lastFlag := n
         guard := w.profile.g
         lmax := w.profile.lmax
         peakM := m
         peakE := e
         opened := n
         own := true
         floorRatio := 0 }
     let own : Record :=
       { start := first
         length := n + w.profile.g + 1 - first
         kind := .click
         origin := .detector
         state := .opened
         disp := .applied
         ratio := ratio
         before := some (before.anchorBefore L first)
         after := none }
     let absorbs := fun (r : Record) =>
       r.state = .live ∧ r.disp = .applied ∧ max (n + w.profile.g) r.last + 1 - first ≤ 1024
     let gives := fun (t : State) =>
       exec (.analysePosition L) s = .next t.grant ∧ (t.lane L).x1 = x ∧ (t.lane L).x2 = l.x1 ∧
         (t.lane L).suspend = 2 ∧ (t.lane L).envelope = l.envelope ∧ (t.lane L).analysis = n + 1
     s.storeWf → l.state = .active → n < l.fill → l.start ≤ n → n + w.profile.g < 4294967296 → l.active = some w →
     w.profile.inRange → s.missingAt L n = false → l.suspend = 2 → e * profile.t < 64 * m →
     first + 1023 ≤ 4294967295 →
     (l.span = none → l.list = [] → s.canTake L = false →
       ((∀ start len, l.piece ≠ some (.unlisted start len)) →
         ∃ t : State, gives t ∧ (t.lane L).list = [] ∧
           (t.lane L).span = some { entry with form := .unlisted, own := false } ∧ (t.lane L).armed = false ∧
           (t.lane L).counters = l.counters.set 9 (min (l.counters[9] + 1) 4294967295) ∧
           (t.lane L).blocks = ((l.setBlock (l.ord first)
             { l.block (l.ord first) with tally := (l.block (l.ord first)).tally + 1 }).blockEnd n).blocks ∧
           ∀ q, t.port q = { s.port q with
             entries := if l.armed then (s.port q).entries.set (entryIndex 2 (some L)).val
                 (before.foldedEntry q .unlisted (some L) first 0)
               else (s.port q).entries }) ∧
       (∀ start len, l.piece = some (.unlisted start len) →
         ∃ t : State, gives t ∧ (t.lane L).list = [] ∧ (t.lane L).span = none ∧
           (t.lane L).counters = l.counters.set 10 (min (l.counters[10] + 1) 4294967295))) ∧
     (∀ r, l.span = none → l.list = [r] → r.state = .live → r.disp = .applied → r.start ≤ n → r.last < n →
       first ≤ r.last + 1 → n + w.profile.g + 1 - r.start ≤ 1024 →
       ∃ t : State, gives t ∧
         (t.lane L).list = [{ r with
           length := n + w.profile.g + 1 - r.start
           state := .opened
           ratio := if hasRatio r.kind then max r.ratio ratio else 0
           before := some (before.anchorBefore L r.start)
           after := none }] ∧
         (t.lane L).span = some { entry with
           start := r.start
           cap := min (r.start + 1023) 4294967295
           own := false
           floorRatio := if hasRatio r.kind then r.ratio else 0 } ∧
         (t.lane L).edit = (l.mergeMark r.start (n + w.profile.g)).edit ∧
         (t.lane L).blocks = ((l.mergeMark r.start (n + w.profile.g)).blockEnd n).blocks ∧
         (t.lane L).counters = l.counters) ∧
     (∀ r, l.span = none → l.list = [r] → n < r.start → r.start ≤ n + w.profile.g + 1 → s.canTake L = true →
       (absorbs r →
         let last := max (n + w.profile.g) r.last
         let floorRatio := if hasRatio r.kind then r.ratio else 0
         ∃ t : State, gives t ∧
           (t.lane L).list = [{ own with
             length := last + 1 - first
             kind := r.kind
             origin := if r.kind = .click then .detector else r.origin
             ratio := if hasRatio r.kind then max r.ratio ratio else 0 }] ∧
           (t.lane L).span = some { entry with last := last, floorRatio := floorRatio } ∧
           (t.lane L).edit = (l.mergeMark first last).edit ∧
           (t.lane L).blocks = ((l.mergeMark first last).blockEnd n).blocks ∧ (t.lane L).counters = l.counters) ∧
       (¬ absorbs r → n + 2 < r.start →
         ∃ t : State, gives t ∧
           (t.lane L).list = [{ own with length := r.start - 1 - first }, r] ∧
           (t.lane L).span = some { entry with last := r.start - 2, pinned := true } ∧
           (t.lane L).edit = l.edit ∧ (t.lane L).counters = l.counters) ∧
       (¬ absorbs r → r.start = n + 2 →
         let kind := if w.profile.lmax < n + 1 - first then Kind.burst else .click
         ∃ t : State, gives t ∧
           (t.lane L).list = [{ own with length := n + 1 - first, kind := kind }, r] ∧
           (t.lane L).span = some { entry with last := n, pinned := true, phase := .waiting } ∧
           (t.lane L).edit = l.edit ∧
           (t.lane L).counters = if kind = .burst then l.counters.set 4 (min (l.counters[4] + 1) 4294967295)
             else l.counters.set 3 (min (l.counters[3] + 1) 4294967295)) ∧
       (¬ absorbs r → r.start = n + 1 → r.before ≠ none →
         ∃ t : State, gives t ∧ (t.lane L).list = [r] ∧ (t.lane L).span = none ∧ (t.lane L).edit = l.edit ∧
           (t.lane L).counters = l.counters.set 10 (min (l.counters[10] + 1) 4294967295))) ∧
     (∀ r sp, l.span = some sp → sp.phase = .growing → sp.form = .listed → sp.pinned = false → l.list = [r] →
       r.start = sp.start → r.state = .opened → r.start ≤ sp.opened → n < sp.cap → 1 ≤ sp.guard →
       sp.last < min (n + sp.guard) sp.cap →
       ∃ t : State, gives t ∧
         let peakM := if sp.peakM < m then m else sp.peakM
         let peakE := if sp.peakM < m then e else sp.peakE
         (t.lane L).span = some { sp with
           last := min (n + sp.guard) sp.cap, lastFlag := n, peakM := peakM, peakE := peakE } ∧
         (t.lane L).list = [{ r with
           length := min (n + sp.guard) sp.cap + 1 - sp.start
           ratio := if hasRatio r.kind then max sp.floorRatio (if peakE = 0 then 255 else min (64 * peakM / peakE) 255)
             else 0 }] ∧
         (t.lane L).counters = l.counters ∧ (t.lane L).edit = l.edit))

/-! ### Arithmetic (Chapters 5 to 7) -/

/-- R97, R43: the value a record of length `len` between anchors a and b gives at index i is a plus
(b − a)·(i + 1)/(len + 1) to the nearest integer, halves away from zero, and lies between the anchors, both included.
R95, R96, R98, R103, R126 to R128, R130, R132 to R134: a render takes its positions in order through repair, hum and hiss, each
from the working state the one before left: covered positions by their record's line, others raw; where the hum stage is not
bypassed, its output is x less the sum of the active harmonics' waves by their coefficients, shifted right by 23, saturated to
24 bits, the active coefficients move by that output times their wave, shifted right by 7 + μ, saturated to 32 bits, and the
phase by the increment; the envelope V moves by (16·|u| − V) shifted right by 8, and y by (u − y) times the smoothing factor
of the highest step whose level V has reached, shifted right by 15. Under a profile in range, from filter fields, raw samples
and anchors in their ranges, the render gives one restored sample for each raw sample, every one an internal sample, and leaves
filter fields in range; a block whose hum stage is bypassed leaves phase and coefficients 0. -/
def Obligations.RepairHumAndHissStayInRange : Prop :=
  (∀ (a b : Int) (len i : Nat), i < len →
     let q := interpolate a b len i - a
     let exact := (b - a) * ((i : Int) + 1)
     let off := (q * ((len : Int) + 1) - exact).natAbs
     min a b ≤ a + q ∧ a + q ≤ max a b ∧ 2 * off ≤ len + 1 ∧
       (2 * off = len + 1 → exact.natAbs < (q * ((len : Int) + 1)).natAbs)) ∧
  (∀ r : Render, r.profile.inRange → r.work.inRange → (∀ x ∈ r.raw, isSample x) →
     (∀ c ∈ r.records, isSample c.before ∧ isSample c.after) →
     r.result.1.length = r.raw.length ∧ (∀ y ∈ r.result.1, isSample y) ∧ r.result.2.inRange ∧
     (r.profile.mode = .tracked → (r.latch.line = .searching ∨ r.latch.line = .disabled) →
       r.result.2.phase = 0 ∧ r.result.2.a = Vector.replicate 8 0 ∧ r.result.2.b = Vector.replicate 8 0)) ∧
  (∀ (p : Profile) (increment : Nat) (w : Filter) (x : Int),
     let active := fun (k : Fin 8) => decide (k.val + 1 ≤ p.h) && decide ((k.val + 1) * increment < 2147483648)
     let estimate := ((List.finRange 8).map fun k =>
       if active k then w.a[k.val] * waveCos (k.val + 1) w.phase + w.b[k.val] * waveSin (k.val + 1) w.phase else 0).sum /
         8388608
     let e := max (-8388608) (min 8388607 (x - estimate))
     let moved := fun (c wave : Int) => max (-2147483648) (min 2147483647 (c + (e * wave) / (2 ^ (7 + p.mu) : Int)))
     let stage := humStage p increment (activeHarmonics p increment) w x
     stage.1 = e ∧ stage.2.phase = (w.phase + increment) % 4294967296 ∧ stage.2.y = w.y ∧ stage.2.v = w.v ∧
     ∀ k : Fin 8,
       stage.2.a[k.val] = (if active k then moved w.a[k.val] (waveCos (k.val + 1) w.phase) else w.a[k.val]) ∧
       stage.2.b[k.val] = (if active k then moved w.b[k.val] (waveSin (k.val + 1) w.phase) else w.b[k.val])) ∧
  (∀ (p : Profile) (w : Filter) (u : Int),
     let v := w.v + (16 * (u.natAbs : Int) - w.v) / 256
     let reached := fun (j : Fin 12) => 16 * ((p.levels[j.val] : Nat) : Int) ≤ v
     ∃ j : Fin 12, (reached j ∨ j = 0) ∧ (∀ i, j < i → ¬ reached i) ∧
       hissStage p w u = { w with v := v, y := w.y + ((u - w.y) * ((p.alphas[j.val] : Nat) : Int)) / 32768 }) ∧
  (∀ r : Render,
     let bypassed := r.profile.mode = .tracked ∧ (r.latch.line = .searching ∨ r.latch.line = .disabled)
     let covering := fun (i : Nat) => r.records.find? fun c =>
       decide (c.start ≤ r.first + i) && decide (r.first + i < c.start + c.length)
     ∃ work : Nat → Filter, work 0 = r.work ∧
       (∀ i x, r.raw[i]? = some x → ∃ repaired : Int,
         (covering i = none → repaired = x) ∧
         (∀ c, covering i = some c → repaired = interpolate c.before c.after c.length (r.first + i - c.start)) ∧
         (bypassed → work (i + 1) = hissStage r.profile (work i) repaired) ∧
         (¬ bypassed →
           let hum := humStage r.profile r.latch.increment (activeHarmonics r.profile r.latch.increment) (work i) repaired
           work (i + 1) = hissStage r.profile hum.2 hum.1) ∧
         r.result.1[i]? = some (work (i + 1)).y) ∧
       let w := work r.raw.length
       (¬ bypassed → r.result.2 = w) ∧
       (bypassed → r.result.2 = ⟨0, Vector.replicate 8 0, Vector.replicate 8 0, w.y, w.v⟩))

/-- R137, R138, R139: a delivered word read back under the same width and byte order is itself, 16-bit words widened by 256;
a 16-bit word that nothing changes is delivered as itself under both roundings; delivery at 24 bits is the sample; at 16 bits
TRUNCATE drops the fraction toward zero, and NEAREST rounds to the nearest, halves to even, saturated at 32,767. -/
def Obligations.DeliveredWordsFollowTheirRounding : Prop :=
  (∀ (o : ByteOrder) (y : Int), isSample y → decodeWord .w24 o (wordBytes .w24 o y) = y) ∧
  (∀ (o : ByteOrder) (x : Int), -32768 ≤ x → x ≤ 32767 → decodeWord .w16 o (wordBytes .w16 o x) = 256 * x) ∧
  (∀ (r : Rounding) (x : Int), -32768 ≤ x → x ≤ 32767 → deliveredWord .w16 r (256 * x) = x) ∧
  (∀ (r : Rounding) (y : Int), deliveredWord .w24 r y = y) ∧
  ∀ y : Int, isSample y →
    (let w := deliveredWord .w16 .truncate y
     w.natAbs = y.natAbs / 256 ∧ (0 ≤ y → 0 ≤ w) ∧ (y ≤ 0 → w ≤ 0)) ∧
    (let w := deliveredWord .w16 .nearest y
     (8388480 ≤ y → w = 32767) ∧
     (y < 8388480 → (256 * w - y).natAbs ≤ 128 ∧ ((256 * w - y).natAbs = 128 → w % 2 = 0)))

/-! ### What every step keeps -/

/-- R9: the Sample Store's buffers keep their one form, in every state and under every command. -/
def Obligations.StepKeepsTheStoreForm : Prop :=
  ∀ s t : State, step s = .next t → s.storeWf → t.storeWf

/-- R143, R145, R148: every library record and every working copy stays in range and ordered. -/
def Obligations.StepKeepsProfilesInRange : Prop :=
  ∀ s t : State, step s = .next t → s.profilesInRange → t.profilesInRange

/-- R157, R159, R161, R163, R165, R168, R172, R174: every port stays within the limits of its queue, lists, counters and notice
entries, has a response of its request in progress exactly while it has one, and, while its link is DOWN, holds the
values of a link DOWN. -/
def Obligations.StepKeepsThePortsBounded : Prop :=
  ∀ s t : State, step s = .next t → (∀ p, (s.port p).bounded) → ∀ p, (t.port p).bounded

/-- R110, R111, R115: every line record stays in its ranges, DISABLED exactly while its enable is off, with no settled level,
reference or periods while DISABLED, and with P_s 0 in DISABLED and SEARCHING and at least 4096 in TRACKING and COAST. -/
def Obligations.StepKeepsTheLinesInRange : Prop :=
  ∀ s t : State, step s = .next t → (∀ k, (s.line k).inRange) → ∀ k, (t.line k).inRange

/-- The state after reset meets the four invariants above. -/
def Obligations.ResetMeetsTheInvariants : Prop :=
  State.reset.storeWf ∧ State.reset.profilesInRange ∧ (∀ p, (State.reset.port p).bounded) ∧
    ∀ k, (State.reset.line k).inRange

/-- R12, R1, R141: while a lane stays open, no step takes any of its four points back, and no step changes its settings: the
ports, rate, ring, hold depth, reserve, line, start position, delivery width, rounding and log enable of its LANE OPEN. -/
def Obligations.OpenLanesKeepTheirSettingsAndGoForward : Prop :=
  ∀ s t : State, step s = .next t → ∀ L, (s.lane L).state ≠ .closed → (t.lane L).state ≠ .closed →
    (s.lane L).fill ≤ (t.lane L).fill ∧ (s.lane L).analysis ≤ (t.lane L).analysis ∧
    (s.lane L).render ≤ (t.lane L).render ∧ (s.lane L).release ≤ (t.lane L).release ∧
    (t.lane L).source = (s.lane L).source ∧ (t.lane L).sink = (s.lane L).sink ∧ (t.lane L).rate = (s.lane L).rate ∧
    (t.lane L).ring = (s.lane L).ring ∧ (t.lane L).hold = (s.lane L).hold ∧ (t.lane L).reserve = (s.lane L).reserve ∧
    (t.lane L).line = (s.lane L).line ∧ (t.lane L).start = (s.lane L).start ∧ (t.lane L).width = (s.lane L).width ∧
    (t.lane L).rounding = (s.lane L).rounding ∧ (t.lane L).log = (s.lane L).log

/-- R143, R161, R164: no step but the taking of a PROFILE WRITE and a reset changes the Profile Library; and what a port has sent
only grows, by one frame at a time, on a link that is UP, and by the five events of its own arbiter alone. -/
def Obligations.OnlyTheirEventsWriteTheLibraryAndSend : Prop :=
  ∀ s t : State, step s = .next t →
    ((∀ i : Fin 32, t.library[i.val] = s.library[i.val]) ∨
      (∃ p tag lane slot r rest, s.pending = .profileWrite p tag lane slot r :: rest) ∨
      (∃ p tag lane rest, s.pending = .unitReset p tag lane :: rest) ∨ ∃ rest, s.pending = .resetPin :: rest) ∧
    ∀ p, (t.port p).sent = (s.port p).sent ∨
      ((∃ f, (t.port p).sent = (s.port p).sent ++ [f]) ∧ (s.port p).link = .up ∧
        ∃ c rest, s.pending = c :: rest ∧
          (c = .release p ∨ c = .logFrameTaken p ∨ c = .responseTaken p ∨ c = .noticeTaken p ∨ c = .flowFrameTaken p))
end

