-- ==== Sys2Proof/Laws/State.lean ====
section
/-! SUPPORT. The fields of the state under each of its updates, and the accessors read back. -/

namespace Sys2Proof.Machine
open Sys2Proof

/-! ### State.event -/

@[simp] theorem State.event_lanes (s : State) : s.event.lanes = s.lanes := rfl
@[simp] theorem State.event_store (s : State) : s.event.store = s.store := rfl
@[simp] theorem State.event_engine (s : State) : s.event.engine = s.engine := rfl
@[simp] theorem State.event_portA (s : State) : s.event.portA = s.portA := rfl
@[simp] theorem State.event_portB (s : State) : s.event.portB = s.portB := rfl
@[simp] theorem State.event_tick (s : State) : s.event.tick = s.tick := rfl
@[simp] theorem State.event_lines (s : State) : s.event.lines = s.lines := rfl
@[simp] theorem State.event_library (s : State) : s.event.library = s.library := rfl
@[simp] theorem State.event_pending (s : State) : s.event.pending = s.pending := rfl

/-! ### State.setLane -/

@[simp] theorem State.setLane_store (s : State) (L : LaneId) (l : Lane) : (s.setLane L l).store = s.store := rfl
@[simp] theorem State.setLane_engine (s : State) (L : LaneId) (l : Lane) : (s.setLane L l).engine = s.engine := rfl
@[simp] theorem State.setLane_portA (s : State) (L : LaneId) (l : Lane) : (s.setLane L l).portA = s.portA := rfl
@[simp] theorem State.setLane_portB (s : State) (L : LaneId) (l : Lane) : (s.setLane L l).portB = s.portB := rfl
@[simp] theorem State.setLane_tick (s : State) (L : LaneId) (l : Lane) : (s.setLane L l).tick = s.tick := rfl
@[simp] theorem State.setLane_lines (s : State) (L : LaneId) (l : Lane) : (s.setLane L l).lines = s.lines := rfl
@[simp] theorem State.setLane_library (s : State) (L : LaneId) (l : Lane) : (s.setLane L l).library = s.library := rfl
@[simp] theorem State.setLane_events (s : State) (L : LaneId) (l : Lane) : (s.setLane L l).events = s.events := rfl
@[simp] theorem State.setLane_pending (s : State) (L : LaneId) (l : Lane) : (s.setLane L l).pending = s.pending := rfl

/-! ### State.modLane -/

@[simp] theorem State.modLane_store (s : State) (L : LaneId) (f : Lane → Lane) : (s.modLane L f).store = s.store := rfl
@[simp] theorem State.modLane_engine (s : State) (L : LaneId) (f : Lane → Lane) : (s.modLane L f).engine = s.engine := rfl
@[simp] theorem State.modLane_portA (s : State) (L : LaneId) (f : Lane → Lane) : (s.modLane L f).portA = s.portA := rfl
@[simp] theorem State.modLane_portB (s : State) (L : LaneId) (f : Lane → Lane) : (s.modLane L f).portB = s.portB := rfl
@[simp] theorem State.modLane_tick (s : State) (L : LaneId) (f : Lane → Lane) : (s.modLane L f).tick = s.tick := rfl
@[simp] theorem State.modLane_lines (s : State) (L : LaneId) (f : Lane → Lane) : (s.modLane L f).lines = s.lines := rfl
@[simp] theorem State.modLane_library (s : State) (L : LaneId) (f : Lane → Lane) : (s.modLane L f).library = s.library := rfl
@[simp] theorem State.modLane_events (s : State) (L : LaneId) (f : Lane → Lane) : (s.modLane L f).events = s.events := rfl
@[simp] theorem State.modLane_pending (s : State) (L : LaneId) (f : Lane → Lane) : (s.modLane L f).pending = s.pending := rfl

/-! ### State.setList -/

@[simp] theorem State.setList_store (s : State) (L : LaneId) (rs : List Record) : (s.setList L rs).store = s.store := rfl
@[simp] theorem State.setList_engine (s : State) (L : LaneId) (rs : List Record) : (s.setList L rs).engine = s.engine := rfl
@[simp] theorem State.setList_portA (s : State) (L : LaneId) (rs : List Record) : (s.setList L rs).portA = s.portA := rfl
@[simp] theorem State.setList_portB (s : State) (L : LaneId) (rs : List Record) : (s.setList L rs).portB = s.portB := rfl
@[simp] theorem State.setList_tick (s : State) (L : LaneId) (rs : List Record) : (s.setList L rs).tick = s.tick := rfl
@[simp] theorem State.setList_lines (s : State) (L : LaneId) (rs : List Record) : (s.setList L rs).lines = s.lines := rfl
@[simp] theorem State.setList_library (s : State) (L : LaneId) (rs : List Record) : (s.setList L rs).library = s.library := rfl
@[simp] theorem State.setList_events (s : State) (L : LaneId) (rs : List Record) : (s.setList L rs).events = s.events := rfl
@[simp] theorem State.setList_pending (s : State) (L : LaneId) (rs : List Record) : (s.setList L rs).pending = s.pending := rfl

/-! ### State.count -/

@[simp] theorem State.count_store (s : State) (L : LaneId) (c : Ctr) : (s.count L c).store = s.store := rfl
@[simp] theorem State.count_engine (s : State) (L : LaneId) (c : Ctr) : (s.count L c).engine = s.engine := rfl
@[simp] theorem State.count_portA (s : State) (L : LaneId) (c : Ctr) : (s.count L c).portA = s.portA := rfl
@[simp] theorem State.count_portB (s : State) (L : LaneId) (c : Ctr) : (s.count L c).portB = s.portB := rfl
@[simp] theorem State.count_tick (s : State) (L : LaneId) (c : Ctr) : (s.count L c).tick = s.tick := rfl
@[simp] theorem State.count_lines (s : State) (L : LaneId) (c : Ctr) : (s.count L c).lines = s.lines := rfl
@[simp] theorem State.count_library (s : State) (L : LaneId) (c : Ctr) : (s.count L c).library = s.library := rfl
@[simp] theorem State.count_events (s : State) (L : LaneId) (c : Ctr) : (s.count L c).events = s.events := rfl
@[simp] theorem State.count_pending (s : State) (L : LaneId) (c : Ctr) : (s.count L c).pending = s.pending := rfl

/-! ### State.setLine -/

@[simp] theorem State.setLine_lanes (s : State) (k : LineId) (l : Line) : (s.setLine k l).lanes = s.lanes := rfl
@[simp] theorem State.setLine_store (s : State) (k : LineId) (l : Line) : (s.setLine k l).store = s.store := rfl
@[simp] theorem State.setLine_engine (s : State) (k : LineId) (l : Line) : (s.setLine k l).engine = s.engine := rfl
@[simp] theorem State.setLine_portA (s : State) (k : LineId) (l : Line) : (s.setLine k l).portA = s.portA := rfl
@[simp] theorem State.setLine_portB (s : State) (k : LineId) (l : Line) : (s.setLine k l).portB = s.portB := rfl
@[simp] theorem State.setLine_tick (s : State) (k : LineId) (l : Line) : (s.setLine k l).tick = s.tick := rfl
@[simp] theorem State.setLine_library (s : State) (k : LineId) (l : Line) : (s.setLine k l).library = s.library := rfl
@[simp] theorem State.setLine_events (s : State) (k : LineId) (l : Line) : (s.setLine k l).events = s.events := rfl
@[simp] theorem State.setLine_pending (s : State) (k : LineId) (l : Line) : (s.setLine k l).pending = s.pending := rfl

/-! ### State.setStore -/

@[simp] theorem State.setStore_lanes (s : State) (m : SampleStore) : (s.setStore m).lanes = s.lanes := rfl
@[simp] theorem State.setStore_engine (s : State) (m : SampleStore) : (s.setStore m).engine = s.engine := rfl
@[simp] theorem State.setStore_portA (s : State) (m : SampleStore) : (s.setStore m).portA = s.portA := rfl
@[simp] theorem State.setStore_portB (s : State) (m : SampleStore) : (s.setStore m).portB = s.portB := rfl
@[simp] theorem State.setStore_tick (s : State) (m : SampleStore) : (s.setStore m).tick = s.tick := rfl
@[simp] theorem State.setStore_lines (s : State) (m : SampleStore) : (s.setStore m).lines = s.lines := rfl
@[simp] theorem State.setStore_library (s : State) (m : SampleStore) : (s.setStore m).library = s.library := rfl
@[simp] theorem State.setStore_events (s : State) (m : SampleStore) : (s.setStore m).events = s.events := rfl
@[simp] theorem State.setStore_pending (s : State) (m : SampleStore) : (s.setStore m).pending = s.pending := rfl

/-! ### State.setEngine -/

@[simp] theorem State.setEngine_lanes (s : State) (e : Engine) : (s.setEngine e).lanes = s.lanes := rfl
@[simp] theorem State.setEngine_store (s : State) (e : Engine) : (s.setEngine e).store = s.store := rfl
@[simp] theorem State.setEngine_portA (s : State) (e : Engine) : (s.setEngine e).portA = s.portA := rfl
@[simp] theorem State.setEngine_portB (s : State) (e : Engine) : (s.setEngine e).portB = s.portB := rfl
@[simp] theorem State.setEngine_tick (s : State) (e : Engine) : (s.setEngine e).tick = s.tick := rfl
@[simp] theorem State.setEngine_lines (s : State) (e : Engine) : (s.setEngine e).lines = s.lines := rfl
@[simp] theorem State.setEngine_library (s : State) (e : Engine) : (s.setEngine e).library = s.library := rfl
@[simp] theorem State.setEngine_events (s : State) (e : Engine) : (s.setEngine e).events = s.events := rfl
@[simp] theorem State.setEngine_pending (s : State) (e : Engine) : (s.setEngine e).pending = s.pending := rfl

@[simp] theorem State.event_events (s : State) : s.event.events = s.events + 1 := rfl
@[simp] theorem State.setStore_store (s : State) (m : SampleStore) : (s.setStore m).store = m := rfl
@[simp] theorem State.setEngine_engine (s : State) (e : Engine) : (s.setEngine e).engine = e := rfl

/-! ### State.setPort and State.modPort -/

@[simp] theorem State.setPort_lanes (s : State) (p : Port) (r : PortRec) : (s.setPort p r).lanes = s.lanes := by
  cases p <;> rfl
@[simp] theorem State.modPort_lanes (s : State) (p : Port) (f : PortRec → PortRec) : (s.modPort p f).lanes = s.lanes := by
  cases p <;> rfl
@[simp] theorem State.setPort_store (s : State) (p : Port) (r : PortRec) : (s.setPort p r).store = s.store := by
  cases p <;> rfl
@[simp] theorem State.modPort_store (s : State) (p : Port) (f : PortRec → PortRec) : (s.modPort p f).store = s.store := by
  cases p <;> rfl
@[simp] theorem State.setPort_engine (s : State) (p : Port) (r : PortRec) : (s.setPort p r).engine = s.engine := by
  cases p <;> rfl
@[simp] theorem State.modPort_engine (s : State) (p : Port) (f : PortRec → PortRec) : (s.modPort p f).engine = s.engine := by
  cases p <;> rfl
@[simp] theorem State.setPort_tick (s : State) (p : Port) (r : PortRec) : (s.setPort p r).tick = s.tick := by
  cases p <;> rfl
@[simp] theorem State.modPort_tick (s : State) (p : Port) (f : PortRec → PortRec) : (s.modPort p f).tick = s.tick := by
  cases p <;> rfl
@[simp] theorem State.setPort_lines (s : State) (p : Port) (r : PortRec) : (s.setPort p r).lines = s.lines := by
  cases p <;> rfl
@[simp] theorem State.modPort_lines (s : State) (p : Port) (f : PortRec → PortRec) : (s.modPort p f).lines = s.lines := by
  cases p <;> rfl
@[simp] theorem State.setPort_library (s : State) (p : Port) (r : PortRec) : (s.setPort p r).library = s.library := by
  cases p <;> rfl
@[simp] theorem State.modPort_library (s : State) (p : Port) (f : PortRec → PortRec) : (s.modPort p f).library = s.library := by
  cases p <;> rfl
@[simp] theorem State.setPort_events (s : State) (p : Port) (r : PortRec) : (s.setPort p r).events = s.events := by
  cases p <;> rfl
@[simp] theorem State.modPort_events (s : State) (p : Port) (f : PortRec → PortRec) : (s.modPort p f).events = s.events := by
  cases p <;> rfl
@[simp] theorem State.setPort_pending (s : State) (p : Port) (r : PortRec) : (s.setPort p r).pending = s.pending := by
  cases p <;> rfl
@[simp] theorem State.modPort_pending (s : State) (p : Port) (f : PortRec → PortRec) : (s.modPort p f).pending = s.pending := by
  cases p <;> rfl

/-! ### Accessors -/

@[simp] theorem State.lane_setLane_same (s : State) (L : LaneId) (l : Lane) : (s.setLane L l).lane L = l := by
  simp [State.lane, State.setLane]

theorem State.lane_setLane_ne (s : State) (L M : LaneId) (l : Lane) (h : M ≠ L) : (s.setLane L l).lane M = s.lane M := by
  simp [State.lane, State.setLane, Fin.val_inj, Ne.symm h]

@[simp] theorem State.lane_modLane_same (s : State) (L : LaneId) (f : Lane → Lane) :
    (s.modLane L f).lane L = f (s.lane L) := by
  simp [State.modLane]

theorem State.lane_modLane_ne (s : State) (L M : LaneId) (f : Lane → Lane) (h : M ≠ L) :
    (s.modLane L f).lane M = s.lane M := by
  simp [State.modLane, State.lane_setLane_ne _ _ _ _ h]

@[simp] theorem State.line_setLine_same (s : State) (k : LineId) (l : Line) : (s.setLine k l).line k = l := by
  simp [State.line, State.setLine]

theorem State.line_setLine_ne (s : State) (k j : LineId) (l : Line) (h : j ≠ k) : (s.setLine k l).line j = s.line j := by
  simp [State.line, State.setLine, Fin.val_inj, Ne.symm h]

@[simp] theorem State.port_setPort_same (s : State) (p : Port) (r : PortRec) : (s.setPort p r).port p = r := by
  cases p <;> rfl

@[simp] theorem State.port_modPort_same (s : State) (p : Port) (f : PortRec → PortRec) :
    (s.modPort p f).port p = f (s.port p) := by
  cases p <;> rfl

@[simp] theorem State.port_setPort_other (s : State) (p : Port) (r : PortRec) :
    (s.setPort p r).port (otherPort p) = s.port (otherPort p) := by
  cases p <;> rfl

@[simp] theorem State.port_modPort_other (s : State) (p : Port) (f : PortRec → PortRec) :
    (s.modPort p f).port (otherPort p) = s.port (otherPort p) := by
  cases p <;> rfl

@[simp] theorem State.lane_event (s : State) (L : LaneId) : s.event.lane L = s.lane L := rfl
@[simp] theorem State.port_event (s : State) (p : Port) : s.event.port p = s.port p := by cases p <;> rfl
@[simp] theorem State.line_event (s : State) (k : LineId) : s.event.line k = s.line k := rfl
@[simp] theorem State.lane_setPort (s : State) (p : Port) (r : PortRec) (L : LaneId) :
    (s.setPort p r).lane L = s.lane L := by
  cases p <;> rfl
@[simp] theorem State.lane_modPort (s : State) (p : Port) (f : PortRec → PortRec) (L : LaneId) :
    (s.modPort p f).lane L = s.lane L := by
  cases p <;> rfl
@[simp] theorem State.line_modPort (s : State) (p : Port) (f : PortRec → PortRec) (k : LineId) :
    (s.modPort p f).line k = s.line k := by
  cases p <;> rfl
@[simp] theorem State.lane_setStore (s : State) (m : SampleStore) (L : LaneId) : (s.setStore m).lane L = s.lane L := rfl
@[simp] theorem State.lane_setEngine (s : State) (e : Engine) (L : LaneId) : (s.setEngine e).lane L = s.lane L := rfl
@[simp] theorem State.lane_setLine (s : State) (k : LineId) (l : Line) (L : LaneId) :
    (s.setLine k l).lane L = s.lane L := rfl
@[simp] theorem State.port_setLane (s : State) (L : LaneId) (l : Lane) (p : Port) : (s.setLane L l).port p = s.port p := by
  cases p <;> rfl
@[simp] theorem State.port_modLane (s : State) (L : LaneId) (f : Lane → Lane) (p : Port) :
    (s.modLane L f).port p = s.port p := by
  cases p <;> rfl
@[simp] theorem State.port_setStore (s : State) (m : SampleStore) (p : Port) : (s.setStore m).port p = s.port p := by
  cases p <;> rfl
@[simp] theorem State.port_setEngine (s : State) (e : Engine) (p : Port) : (s.setEngine e).port p = s.port p := by
  cases p <;> rfl
@[simp] theorem State.port_setLine (s : State) (k : LineId) (l : Line) (p : Port) : (s.setLine k l).port p = s.port p := by
  cases p <;> rfl

end Sys2Proof.Machine
end

