-- ==== Sys2Proof/Laws/Ops.lean ====
section
/-! SUPPORT. What the shared operations can do, said once: the taking of an entry and its answer, the events that take
place when due, the grant, the settling of a lane, what an anchor taken or a record touched can change, and what a
lane answers to a CONDITION. -/

namespace Sys2Proof.Machine
open Sys2Proof

/-! ### Taking an entry -/

theorem PortRec.taking_head {q : PortRec} {e : Entry} {rest : List Entry} (h1 : q.link = .up)
    (h2 : q.inProgress = none) (h3 : q.queue = e :: rest) : q.taking e = some { q with queue := rest } := by
  unfold PortRec.taking
  rw [if_pos ⟨h1, h2⟩]
  unfold PortRec.popped
  rw [h3]
  simp

theorem PortRec.taking_empty {q : PortRec} {e : Entry} (h1 : q.link = .up) (h2 : q.inProgress = none)
    (h3 : q.queue = []) : q.taking e = some { q.enqueue e with queue := [] } := by
  unfold PortRec.taking
  rw [if_pos ⟨h1, h2⟩]
  unfold PortRec.popped
  rw [h3]

/-- An entry a port offers is taken: the command's effect, on the state one event later without the entry. -/
theorem State.take_offers {s : State} {p : Port} {e : Entry} {rest : List Entry} (h : s.offers p e rest)
    (f : State → State) : s.take p e f = .next (f (s.took p rest)) := by
  unfold State.take
  rw [PortRec.taking_head h.1 h.2.1 h.2.2]
  rfl

/-- An entry a port cannot take changes nothing. -/
theorem State.take_cannot {s : State} {p : Port} {e : Entry} (h : s.cannotTake p e) (f : State → State) :
    s.take p e f = .next s := by
  have : (s.port p).taking e = none := by
    unfold PortRec.taking
    rcases h with h | h | ⟨x, t, hq, hx⟩
    · simp [h]
    · cases hp : (s.port p).inProgress <;> simp_all
    · split
      · unfold PortRec.popped
        rw [hq]
        simp [hx]
      · rfl
  simp only [State.take, this]

/-- Whatever is taken, the outcome is a next state. -/
theorem State.take_next (s : State) (p : Port) (e : Entry) (f : State → State) : ∃ t, s.take p e f = .next t := by
  unfold State.take
  split
  · exact ⟨_, rfl⟩
  · exact ⟨_, rfl⟩

theorem State.answer_eq (s : State) (p : Port) (tag : Half) (lane : Byte) (st : Status) (payload : List Byte) :
    s.answer p tag lane st payload = s.replied p tag lane st payload := rfl

/-! ### Events taken when due -/

theorem State.takePlace_due {s : State} {due : Bool} (h : due = true) (f : State → State) :
    s.takePlace due f = .next (f s.event) := by
  simp [State.takePlace, h]

theorem State.takePlace_not_due {s : State} {due : Bool} (h : due = false) (f : State → State) :
    s.takePlace due f = .next s := by
  simp [State.takePlace, h]

theorem State.when_false (s : State) (f : State → State) : s.when false f = s := rfl

theorem State.when_true (s : State) (f : State → State) : s.when true f = f s := rfl

/-! ### The fields of `took` and `replied` -/

@[simp] theorem State.took_lane (s : State) (p : Port) (rest : List Entry) (L : LaneId) :
    (s.took p rest).lane L = s.lane L := by cases p <;> rfl
@[simp] theorem State.took_line (s : State) (p : Port) (rest : List Entry) (k : LineId) :
    (s.took p rest).line k = s.line k := by cases p <;> rfl
@[simp] theorem State.took_store (s : State) (p : Port) (rest : List Entry) : (s.took p rest).store = s.store := by
  cases p <;> rfl
@[simp] theorem State.took_lanes (s : State) (p : Port) (rest : List Entry) : (s.took p rest).lanes = s.lanes := by
  cases p <;> rfl
@[simp] theorem State.took_lines (s : State) (p : Port) (rest : List Entry) : (s.took p rest).lines = s.lines := by
  cases p <;> rfl
@[simp] theorem State.took_library (s : State) (p : Port) (rest : List Entry) :
    (s.took p rest).library = s.library := by cases p <;> rfl
@[simp] theorem State.took_engine (s : State) (p : Port) (rest : List Entry) : (s.took p rest).engine = s.engine := by
  cases p <;> rfl
@[simp] theorem State.took_tick (s : State) (p : Port) (rest : List Entry) : (s.took p rest).tick = s.tick := by
  cases p <;> rfl
@[simp] theorem State.took_pending (s : State) (p : Port) (rest : List Entry) :
    (s.took p rest).pending = s.pending := by cases p <;> rfl
@[simp] theorem State.took_events (s : State) (p : Port) (rest : List Entry) :
    (s.took p rest).events = s.events + 1 := by cases p <;> rfl
@[simp] theorem State.took_port_same (s : State) (p : Port) (rest : List Entry) :
    (s.took p rest).port p = { s.port p with queue := rest } := by cases p <;> rfl
@[simp] theorem State.took_port_other (s : State) (p : Port) (rest : List Entry) :
    (s.took p rest).port (otherPort p) = s.port (otherPort p) := by cases p <;> rfl

/-! ### Lanes by number -/

theorem laneOf_of_toNat {b : Byte} {L : LaneId} (h : b.toNat = L.val) : laneOf b = some L := by
  unfold laneOf
  rw [dif_pos (h ▸ L.isLt)]
  exact congrArg some (Fin.ext h)

theorem laneOf_none {b : Byte} (h : 5 < b.toNat) : laneOf b = none := by
  unfold laneOf
  rw [dif_neg (by omega)]

theorem Lane.isOpen_iff (l : Lane) : l.isOpen = true ↔ l.state ≠ .closed := by
  cases h : l.state <;> simp [Lane.isOpen, h]

theorem Lane.isOpen_false_iff (l : Lane) : l.isOpen = false ↔ l.state = .closed := by
  cases h : l.state <;> simp [Lane.isOpen, h]

/-! ### The grant -/

theorem State.grant_busy {s : State} {r : Render} (h : s.engine.inFlight = some r) : s.grant = s := by
  simp [State.grant, h]

theorem State.grant_none {s : State} (h : s.nextGrant = none) : s.grant = s := by
  unfold State.grant
  split
  · rfl
  · rw [h]

/-- A grant either changes nothing, or starts the render of the block chosen. -/
theorem State.grant_cases (s : State) : s.grant = s ∨ ∃ L j, s.engine.inFlight = none ∧
    s.nextGrant = some (L, j) ∧ s.grant = s.startRender L j := by
  unfold State.grant
  split
  · exact .inl rfl
  · rename_i h
    split
    · rename_i L j hg
      exact .inr ⟨L, j, h, hg, rfl⟩
    · exact .inl rfl

@[simp] theorem State.grant_portA (s : State) : s.grant.portA = s.portA := by
  rcases s.grant_cases with h | ⟨L, j, -, -, h⟩ <;> rw [h]
  rfl
@[simp] theorem State.grant_portB (s : State) : s.grant.portB = s.portB := by
  rcases s.grant_cases with h | ⟨L, j, -, -, h⟩ <;> rw [h]
  rfl
@[simp] theorem State.grant_port (s : State) (p : Port) : s.grant.port p = s.port p := by
  cases p
  · exact s.grant_portA
  · exact s.grant_portB
@[simp] theorem State.grant_store (s : State) : s.grant.store = s.store := by
  rcases s.grant_cases with h | ⟨L, j, -, -, h⟩ <;> rw [h]
  rfl
@[simp] theorem State.grant_lines (s : State) : s.grant.lines = s.lines := by
  rcases s.grant_cases with h | ⟨L, j, -, -, h⟩ <;> rw [h]
  rfl
@[simp] theorem State.grant_library (s : State) : s.grant.library = s.library := by
  rcases s.grant_cases with h | ⟨L, j, -, -, h⟩ <;> rw [h]
  rfl
@[simp] theorem State.grant_tick (s : State) : s.grant.tick = s.tick := by
  rcases s.grant_cases with h | ⟨L, j, -, -, h⟩ <;> rw [h]
  rfl
@[simp] theorem State.grant_events (s : State) : s.grant.events = s.events := by
  rcases s.grant_cases with h | ⟨L, j, -, -, h⟩ <;> rw [h]
  rfl
@[simp] theorem State.grant_pending (s : State) : s.grant.pending = s.pending := by
  rcases s.grant_cases with h | ⟨L, j, -, -, h⟩ <;> rw [h]
  rfl

/-- A grant changes no lane but in its blocks. -/
theorem State.grant_lane (s : State) (M : LaneId) :
    s.grant.lane M = { s.lane M with blocks := (s.grant.lane M).blocks } := by
  rcases s.grant_cases with h | ⟨L, j, -, -, h⟩ <;> rw [h]
  by_cases hm : M = L
  · subst hm
    rw [State.startRender, State.lane_setEngine, State.lane_setLane_same]
    rfl
  · rw [State.startRender, State.lane_setEngine, State.lane_setLane_ne _ _ _ _ hm]

/-! ### Anchors and reservations -/

theorem Record.takeAnchor_opened {r : Record} (h : r.state = .opened) (n : Nat) (x : Int) : r.takeAnchor n x = r := by
  simp [Record.takeAnchor, h]

/-- Taking an anchor changes no field of a record but its anchors. -/
theorem Record.takeAnchor_frame (r : Record) (n : Nat) (x : Int) :
    r.takeAnchor n x = { r with before := (r.takeAnchor n x).before, after := (r.takeAnchor n x).after } := by
  unfold Record.takeAnchor
  split <;> rfl

/-- A record that is LIVE or FROZEN and ends just before `n` holds its after-anchor once `n` is taken. -/
theorem Record.takeAnchor_after {r : Record} (h : r.state ≠ .opened) {n : Nat} (hn : r.last + 1 = n) (x : Int) :
    (r.takeAnchor n x).after = some (r.after.getD x) := by
  unfold Record.takeAnchor
  rw [if_neg h]
  cases hr : r.after <;> simp [hn]

/-- A SPLICE on a lane whose analysis has finished holds both its anchors (R52, R61). -/
theorem State.editAnchor_finished {s : State} {L : LaneId} (h : (s.lane L).finished = true) (pos : Nat) :
    (s.editAnchor L pos).isSome = true := by
  unfold State.editAnchor
  simp only [h, if_true]
  split <;> rfl

theorem Reservation.reached_iff (r : Reservation) (L : LaneId) (l : Lane) (lo hi : Nat) :
    r.reached L l lo hi = true ↔ r.lane = L ∧ lo ≤ l.lastOf (l.ord r.first) ∧ r.first ≤ hi := by
  simp [Reservation.reached, and_assoc]

/-! ### The current piece -/

@[simp] theorem State.setPiece_lane_piece (s : State) (L : LaneId) (p : Option Piece) :
    ((s.setPiece L p).lane L).piece = p := by simp [State.setPiece, State.modLane]

@[simp] theorem State.setPiece_lane_runEnded (s : State) (L : LaneId) (p : Option Piece) :
    ((s.setPiece L p).lane L).runEnded = false := by simp [State.setPiece, State.modLane]

/-! ### What a CLOSED lane answers -/

/-- A lane that has been opened gives its values in every state, and one that has not gives zeros (R180). -/
theorem State.laneCondition_opened {s : State} {L : LaneId} (h : (s.lane L).everOpened = true) :
    s.laneCondition L = [0x51#8, 0#8, laneByte L, (s.lane L).state.byte] ++ (s.lane L).conditionValues := by
  simp [State.laneCondition, h]

theorem State.laneCondition_never {s : State} {L : LaneId} (hc : (s.lane L).state = .closed)
    (h : (s.lane L).everOpened = false) :
    s.laneCondition L = [0x51#8, 0#8, laneByte L, (s.lane L).state.byte] ++ List.replicate 68 0#8 := by
  simp [State.laneCondition, hc, h]

@[simp] theorem Lane.closed_everOpened (l : Lane) : l.closed.everOpened = true := rfl

end Sys2Proof.Machine
end

