-- ==== Sys2Proof/Laws/PerInstr.lean ====
section
/-! SUPPORT. The statements made per command: for each row of the opcode table, that an entry its command takes is one
the row names, and that a whole request it takes has a code the table of R184 lists. -/

namespace Sys2Proof.Laws
open Sys2Proof Sys2Proof.Machine

/-- A command that takes a queue entry is a command of its own row, and the code of a request it takes stands in the
table of R184. -/
def Tabled.Statement (i : Instr) : Prop :=
  ∀ p e, entryTaken i = some (p, e) →
    i.wellFormed = true ∧ ∀ tag lane r, e = .whole tag lane r → (requestLength (requestCode r)).isSome = true

theorem Tabled.requestFrame (p : Port) (bytes : List Byte) : Tabled.Statement (.requestFrame p bytes) :=
  fun _ _ h => by cases h

theorem Tabled.samplesFrame (p : Port) (bytes : List Byte) : Tabled.Statement (.samplesFrame p bytes) :=
  fun _ _ h => by cases h

theorem Tabled.laneOpen (p : Port) (tag : Half) (lane : Byte) (a : LaneOpenArgs) :
    Tabled.Statement (.laneOpen p tag lane a) := by
  intro q e h
  cases h
  exact ⟨rfl, fun _ _ _ hr => by cases hr; rfl⟩

theorem Tabled.laneClose (p : Port) (tag : Half) (lane : Byte) :
    Tabled.Statement (.laneClose p tag lane) := by
  intro q e h
  cases h
  exact ⟨rfl, fun _ _ _ hr => by cases hr; rfl⟩

theorem Tabled.laneDrain (p : Port) (tag : Half) (lane : Byte) :
    Tabled.Statement (.laneDrain p tag lane) := by
  intro q e h
  cases h
  exact ⟨rfl, fun _ _ _ hr => by cases hr; rfl⟩

theorem Tabled.laneStatus (p : Port) (tag : Half) (lane : Byte) :
    Tabled.Statement (.laneStatus p tag lane) := by
  intro q e h
  cases h
  exact ⟨rfl, fun _ _ _ hr => by cases hr; rfl⟩

theorem Tabled.editVeto (p : Port) (tag : Half) (lane : Byte) (a : EditArgs) :
    Tabled.Statement (.editVeto p tag lane a) := by
  intro q e h
  simp only [entryTaken] at h
  split at h
  · rename_i ha
    cases h
    exact ⟨ha, fun _ _ _ hr => by cases hr; rfl⟩
  · cases h

theorem Tabled.editRestore (p : Port) (tag : Half) (lane : Byte) (a : EditArgs) :
    Tabled.Statement (.editRestore p tag lane a) := by
  intro q e h
  simp only [entryTaken] at h
  split at h
  · rename_i ha
    cases h
    exact ⟨ha, fun _ _ _ hr => by cases hr; rfl⟩
  · cases h

theorem Tabled.editForce (p : Port) (tag : Half) (lane : Byte) (a : EditArgs) :
    Tabled.Statement (.editForce p tag lane a) := by
  intro q e h
  simp only [entryTaken] at h
  split at h
  · rename_i ha
    cases h
    exact ⟨ha, fun _ _ _ hr => by cases hr; rfl⟩
  · cases h

theorem Tabled.editSplice (p : Port) (tag : Half) (lane : Byte) (a : EditArgs) :
    Tabled.Statement (.editSplice p tag lane a) := by
  intro q e h
  simp only [entryTaken] at h
  split at h
  · rename_i ha
    cases h
    exact ⟨ha, fun _ _ _ hr => by cases hr; rfl⟩
  · cases h

theorem Tabled.reserve (p : Port) (tag : Half) (lane : Byte) (pos : Word) :
    Tabled.Statement (.reserve p tag lane pos) := by
  intro q e h
  cases h
  exact ⟨rfl, fun _ _ _ hr => by cases hr; rfl⟩

theorem Tabled.cursorSet (p : Port) (tag : Half) (lane : Byte) (pos : Word) :
    Tabled.Statement (.cursorSet p tag lane pos) := by
  intro q e h
  cases h
  exact ⟨rfl, fun _ _ _ hr => by cases hr; rfl⟩

theorem Tabled.listRead (p : Port) (tag : Half) (lane : Byte) (n : Byte) :
    Tabled.Statement (.listRead p tag lane n) := by
  intro q e h
  cases h
  exact ⟨rfl, fun _ _ _ hr => by cases hr; rfl⟩

theorem Tabled.sync (p : Port) (tag : Half) (lane : Byte) :
    Tabled.Statement (.sync p tag lane) := by
  intro q e h
  cases h
  exact ⟨rfl, fun _ _ _ hr => by cases hr; rfl⟩

theorem Tabled.transportSetup (p : Port) (tag : Half) (lane : Byte) (a : TransportArgs) :
    Tabled.Statement (.transportSetup p tag lane a) := by
  intro q e h
  cases h
  exact ⟨rfl, fun _ _ _ hr => by cases hr; rfl⟩

theorem Tabled.profileWrite (p : Port) (tag : Half) (lane : Byte) (slot : Byte) (r : ProfileRaw) :
    Tabled.Statement (.profileWrite p tag lane slot r) := by
  intro q e h
  cases h
  exact ⟨rfl, fun _ _ _ hr => by cases hr; rfl⟩

theorem Tabled.profileRead (p : Port) (tag : Half) (lane : Byte) (form which : Byte) :
    Tabled.Statement (.profileRead p tag lane form which) := by
  intro q e h
  cases h
  exact ⟨rfl, fun _ _ _ hr => by cases hr; rfl⟩

theorem Tabled.refresh (p : Port) (tag : Half) (lane : Byte) (slot : Byte) :
    Tabled.Statement (.refresh p tag lane slot) := by
  intro q e h
  cases h
  exact ⟨rfl, fun _ _ _ hr => by cases hr; rfl⟩

theorem Tabled.portSetup (p : Port) (tag : Half) (lane : Byte) (width order delivery : Byte) :
    Tabled.Statement (.portSetup p tag lane width order delivery) := by
  intro q e h
  cases h
  exact ⟨rfl, fun _ _ _ hr => by cases hr; rfl⟩

theorem Tabled.unitReset (p : Port) (tag : Half) (lane : Byte) :
    Tabled.Statement (.unitReset p tag lane) := by
  intro q e h
  cases h
  exact ⟨rfl, fun _ _ _ hr => by cases hr; rfl⟩

theorem Tabled.noticeMask (p : Port) (tag : Half) (lane : Byte) (masks : Vector Byte 6) :
    Tabled.Statement (.noticeMask p tag lane masks) := by
  intro q e h
  cases h
  exact ⟨rfl, fun _ _ _ hr => by cases hr; rfl⟩

theorem Tabled.condition (p : Port) (tag : Half) (lane : Byte) (form which : Byte) :
    Tabled.Statement (.condition p tag lane form which) := by
  intro q e h
  cases h
  exact ⟨rfl, fun _ _ _ hr => by cases hr; rfl⟩

theorem Tabled.identify (p : Port) (tag : Half) (lane : Byte) :
    Tabled.Statement (.identify p tag lane) := by
  intro q e h
  cases h
  exact ⟨rfl, fun _ _ _ hr => by cases hr; rfl⟩

theorem Tabled.malformedEntry (p : Port) (tag : Half) (lane : Byte) :
    Tabled.Statement (.malformedEntry p tag lane) := by
  intro q e h
  cases h
  exact ⟨rfl, fun _ _ _ hr => by cases hr⟩

theorem Tabled.unknownEntry (p : Port) (tag : Half) (lane : Byte) :
    Tabled.Statement (.unknownEntry p tag lane) := by
  intro q e h
  cases h
  exact ⟨rfl, fun _ _ _ hr => by cases hr⟩

theorem Tabled.linkDown (p : Port) : Tabled.Statement (.linkDown p) := fun _ _ h => by cases h

theorem Tabled.linkUp (p : Port) : Tabled.Statement (.linkUp p) := fun _ _ h => by cases h

theorem Tabled.resetPin : Tabled.Statement .resetPin := fun _ _ h => by cases h

theorem Tabled.release (p : Port) : Tabled.Statement (.release p) := fun _ _ h => by cases h

theorem Tabled.logFrameTaken (p : Port) : Tabled.Statement (.logFrameTaken p) := fun _ _ h => by cases h

theorem Tabled.responseTaken (p : Port) : Tabled.Statement (.responseTaken p) := fun _ _ h => by cases h

theorem Tabled.noticeTaken (p : Port) : Tabled.Statement (.noticeTaken p) := fun _ _ h => by cases h

theorem Tabled.flowFrameTaken (p : Port) : Tabled.Statement (.flowFrameTaken p) := fun _ _ h => by cases h

theorem Tabled.renderStart : Tabled.Statement .renderStart := fun _ _ h => by cases h

theorem Tabled.renderCompletion : Tabled.Statement .renderCompletion := fun _ _ h => by cases h

theorem Tabled.syncAnswer (lane : LaneId) : Tabled.Statement (.syncAnswer lane) := fun _ _ h => by cases h

theorem Tabled.analysePosition (lane : LaneId) : Tabled.Statement (.analysePosition lane) := fun _ _ h => by cases h

theorem Tabled.perforationEdge (k : LineId) (t : Tick) : Tabled.Statement (.perforationEdge k t) :=
  fun _ _ h => by cases h

theorem Tabled.coastTimeout (k : LineId) (t : Tick) : Tabled.Statement (.coastTimeout k t) := fun _ _ h => by cases h

theorem Tabled.lostTimeout (k : LineId) (t : Tick) : Tabled.Statement (.lostTimeout k t) := fun _ _ h => by cases h

theorem Tabled.searchTimeout (k : LineId) (t : Tick) : Tabled.Statement (.searchTimeout k t) :=
  fun _ _ h => by cases h

theorem Tabled.go (lane : LaneId) : Tabled.Statement (.go lane) := fun _ _ h => by cases h

theorem Tabled.landingPlacement (lane : LaneId) : Tabled.Statement (.landingPlacement lane) := fun _ _ h => by cases h

theorem Tabled.finalBlock (lane : LaneId) : Tabled.Statement (.finalBlock lane) := fun _ _ h => by cases h

theorem Tabled.drainAnalysisFinish (lane : LaneId) : Tabled.Statement (.drainAnalysisFinish lane) :=
  fun _ _ h => by cases h

theorem Tabled.drainCompletion (lane : LaneId) : Tabled.Statement (.drainCompletion lane) := fun _ _ h => by cases h

theorem Tabled.retiringDiscard (lane : LaneId) : Tabled.Statement (.retiringDiscard lane) := fun _ _ h => by cases h

theorem Tabled.filterSample (k : LineId) (t : Tick) (level : Level) : Tabled.Statement (.filterSample k t level) :=
  fun _ _ h => by cases h

end Sys2Proof.Laws
end

