-- ==== Sys2Proof/Laws/Store.lean ====
section
/-! SUPPORT. The Sample Store's buffers: every write keeps the one kept form, a write is read back, and every other
address reads as before. -/

namespace Sys2Proof.Machine
open Sys2Proof

section
variable {α : Type} [DecidableEq α] (d : α)

theorem Cells.wfFrom_mono {lo hi : Nat} (h : lo ≤ hi) {c : Cells α} (hc : Cells.wfFrom d hi c = true) :
    Cells.wfFrom d lo c = true := by
  cases c with
  | nil => rfl
  | cons x t =>
    obtain ⟨a, v⟩ := x
    simp only [Cells.wfFrom, Bool.and_eq_true, decide_eq_true_eq] at hc ⊢
    exact ⟨⟨by omega, hc.1.2⟩, hc.2⟩

theorem Cells.write_wfFrom (k : Nat) (v : α) {lo : Nat} (hlo : lo ≤ k) {c : Cells α}
    (hc : Cells.wfFrom d lo c = true) : Cells.wfFrom d lo (Cells.write d k v c) = true := by
  induction c generalizing lo with
  | nil =>
    by_cases hv : v = d <;> simp [Cells.write, Cells.wfFrom, hv, hlo]
  | cons x t ih =>
    obtain ⟨a, w⟩ := x
    simp only [Cells.wfFrom, Bool.and_eq_true, decide_eq_true_eq] at hc
    obtain ⟨⟨ha, hw⟩, ht⟩ := hc
    simp only [Cells.write]
    split
    · rename_i hka
      split
      · simp [Cells.wfFrom, ha, hw, ht]
      · rename_i hv
        simp [Cells.wfFrom, hlo, hv, hw, ht]
        omega
    · split
      · rename_i hak
        subst hak
        split
        · exact Cells.wfFrom_mono d (by omega) ht
        · rename_i hv
          simp only [Cells.wfFrom, Bool.and_eq_true, decide_eq_true_eq]
          exact ⟨⟨ha, hv⟩, ht⟩
      · simp only [Cells.wfFrom, Bool.and_eq_true, decide_eq_true_eq]
        exact ⟨⟨ha, hw⟩, ih (by omega) ht⟩

theorem Cells.write_wf (k : Nat) (v : α) {c : Cells α} (hc : Cells.wf d c = true) :
    Cells.wf d (Cells.write d k v c) = true :=
  Cells.write_wfFrom d k v (Nat.zero_le k) hc

theorem Cells.read_below {k lo : Nat} (hk : k < lo) {c : Cells α} (hc : Cells.wfFrom d lo c = true) :
    Cells.read d k c = d := by
  cases c with
  | nil => rfl
  | cons x t =>
    obtain ⟨a, v⟩ := x
    simp only [Cells.wfFrom, Bool.and_eq_true, decide_eq_true_eq] at hc
    have h1 : a ≠ k := by omega
    have h2 : k < a := by omega
    simp [Cells.read, h1, h2]

theorem Cells.read_write_from (k j : Nat) (v : α) {lo : Nat} {c : Cells α} (hc : Cells.wfFrom d lo c = true) :
    Cells.read d j (Cells.write d k v c) = if j = k then v else Cells.read d j c := by
  induction c generalizing lo with
  | nil =>
    by_cases hv : v = d <;> by_cases hj : j = k <;> simp [Cells.write, Cells.read, hv, hj]
    omega
  | cons x t ih =>
    obtain ⟨a, w⟩ := x
    simp only [Cells.wfFrom, Bool.and_eq_true, decide_eq_true_eq] at hc
    obtain ⟨⟨ha, hw⟩, ht⟩ := hc
    simp only [Cells.write]
    split
    · rename_i hka
      split
      · rename_i hv
        by_cases hj : j = k
        · have h1 : a ≠ k := by omega
          simp [hj, hv, Cells.read, h1, hka]
        · simp [hj]
      · by_cases hj : j = k
        · simp [hj, Cells.read]
        · have hkj : k ≠ j := fun h => hj h.symm
          by_cases hlt : j < k
          · have h1 : a ≠ j := by omega
            have h2 : j < a := by omega
            simp [Cells.read, hkj, hj, hlt, h1, h2]
          · simp [Cells.read, hkj, hj, hlt]
    · split
      · rename_i hak
        split
        · rename_i hv
          by_cases hj : j = k
          · simp only [hj, if_pos, hv]
            exact Cells.read_below d (Nat.lt_succ_self k) (hak ▸ ht)
          · have h1 : a ≠ j := by omega
            simp only [Cells.read, if_neg h1, if_neg hj]
            by_cases hlt : j < a
            · simp only [hlt, if_true]
              exact Cells.read_below d (Nat.lt_succ_of_lt hlt) ht
            · simp [hlt]
        · by_cases hj : j = k
          · simp [hj, Cells.read]
          · have h1 : k ≠ j := fun h => hj h.symm
            simp [Cells.read, hj, h1, hak]
      · rename_i hka hak
        by_cases h : a = j
        · have hj : j ≠ k := by omega
          simp [Cells.read, h, hj]
        · by_cases hlt : j < a
          · have hj : j ≠ k := by omega
            simp [Cells.read, h, hlt, hj]
          · simp only [Cells.read, if_neg h, if_neg hlt]
            exact ih ht

/-- A write is read back, and every other address reads as before. -/
theorem Cells.read_write (k j : Nat) (v : α) {c : Cells α} (hc : Cells.wf d c = true) :
    Cells.read d j (Cells.write d k v c) = if j = k then v else Cells.read d j c :=
  Cells.read_write_from d k j v hc

end

/-! ### The four buffers -/

theorem SampleStore.wf_iff (m : SampleStore) : m.wf = true ↔ Cells.wf 0 m.raw = true ∧ Cells.wf false m.missing = true ∧
    Cells.wf 0 m.restored = true ∧ Cells.wf Checkpoint.zero m.checkpoints = true := by
  simp [SampleStore.wf, and_assoc]

theorem SampleStore.setRaw_wf (m : SampleStore) (k : Nat) (v : Int) (h : m.wf = true) : (m.setRaw k v).wf = true := by
  rw [SampleStore.wf_iff] at h ⊢
  exact ⟨Cells.write_wf 0 k v h.1, h.2⟩

theorem SampleStore.setMissing_wf (m : SampleStore) (k : Nat) (v : Bool) (h : m.wf = true) :
    (m.setMissing k v).wf = true := by
  rw [SampleStore.wf_iff] at h ⊢
  exact ⟨h.1, Cells.write_wf false k v h.2.1, h.2.2⟩

theorem SampleStore.setRestored_wf (m : SampleStore) (k : Nat) (v : Int) (h : m.wf = true) :
    (m.setRestored k v).wf = true := by
  rw [SampleStore.wf_iff] at h ⊢
  exact ⟨h.1, h.2.1, Cells.write_wf 0 k v h.2.2.1, h.2.2.2⟩

theorem SampleStore.setCheckpoint_wf (m : SampleStore) (slot : Nat) (c : Checkpoint) (h : m.wf = true) :
    (m.setCheckpoint slot c).wf = true := by
  rw [SampleStore.wf_iff] at h ⊢
  exact ⟨h.1, h.2.1, h.2.2.1, Cells.write_wf Checkpoint.zero slot c h.2.2.2⟩

theorem SampleStore.empty_wf : SampleStore.empty.wf = true := rfl

/-- A checkpoint written is read back, and every other slot's reads as before (R103). -/
theorem SampleStore.checkpoint_setCheckpoint (m : SampleStore) (slot j : Nat) (c : Checkpoint) (h : m.wf = true) :
    (m.setCheckpoint slot c).checkpoint j = if j = slot then c else m.checkpoint j := by
  rw [SampleStore.wf_iff] at h
  exact Cells.read_write Checkpoint.zero slot j c h.2.2.2

end Sys2Proof.Machine
end

