-- ==== Sys2Proof/Tests/Slice0.lean ====
section
/-! SUPPORT. The model's own tests: the checks of WellFormed, a few figures the manual works out, and for each statement
with hypotheses a concrete state and operands that meet them, clause by clause. -/

namespace Sys2Proof.Tests
open Sys2Proof Sys2Proof.Machine

/-! ### WellFormed refuses -/

theorem test_wellFormed_requestFrame : (Instr.requestFrame .A [0x02#8]).wellFormed = false := by decide
theorem test_wellFormed_samplesFrame : (Instr.samplesFrame .A [0x01#8]).wellFormed = false := by decide
theorem test_wellFormed_editVeto : (Instr.editVeto .A 0 0 ⟨3, 0, 0, 0⟩).wellFormed = false := by decide
theorem test_wellFormed_editRestore : (Instr.editRestore .A 0 0 ⟨1, 0, 0, 0⟩).wellFormed = false := by decide
theorem test_wellFormed_editForce : (Instr.editForce .A 0 0 ⟨4, 0, 0, 0⟩).wellFormed = false := by decide
theorem test_wellFormed_editSplice : (Instr.editSplice .A 0 0 ⟨2, 0, 0, 0⟩).wellFormed = false := by decide

/-! ### Figures of the manual -/

/-- R155: over the nine ASCII digits 1 to 9. -/
theorem test_crc_check_value :
    crc32 [0x31#8, 0x32#8, 0x33#8, 0x34#8, 0x35#8, 0x36#8, 0x37#8, 0x38#8, 0x39#8] = 0xCBF43926 := by decide +kernel

/-- 05, worked examples: the click of Chapter 2. -/
theorem test_interpolate_click :
    (List.range 7).map (interpolate 80 170 7) = [91, 103, 114, 125, 136, 148, 159] := by decide

/-- 05, worked examples: halves in both directions. -/
theorem test_interpolate_halves : interpolate 500 497 1 0 = 498 ∧
    (List.range 5).map (interpolate (-1000) (-997) 5) = [-999, -999, -998, -998, -997] := by decide

/-- 08, worked example: the write to slot 6. -/
def slot6 : ProfileRaw where
  t := 4
  g := 12
  lmax := 40
  emin := 200
  ls := 600
  mode := 1
  f := 0
  d := 4
  h := 6
  mu := 2
  levels := #v[0, 1500, 6000, 40000, 40000, 40000, 40000, 40000, 40000, 40000, 40000, 9000000]
  alphas := #v[2048, 0, 12000, 40000, 40000, 40000, 40000, 40000, 40000, 40000, 40000, 32768]
  g1 := 2
  g2 := 8
  g3 := 24

theorem test_profile_clamps : clampedProfile slot6 .tracked =
    { t := 8, g := 8, lmax := 40, emin := 200, ls := 511, mode := .tracked, f := 1000, d := 4, h := 6, mu := 4
      levels := #v[0, 1500, 6000, 40000, 40000, 40000, 40000, 40000, 40000, 40000, 40000, 8388607]
      alphas := #v[2048, 1, 12000, 32768, 32768, 32768, 32768, 32768, 32768, 32768, 32768, 32768]
      g1 := 2, g2 := 8, g3 := 24 } := by decide +kernel

/-- 06, worked figures: increments. -/
theorem test_increments :
    incrementOf { Profile.default with mode := .tracked } .k48 .tracking 256000 = 8589935 ∧
    incrementOf { Profile.default with mode := .tracked } .k96 .coast 256000 = 4294967 ∧
    incrementOf { Profile.default with mode := .tracked, d := 4 } .k48 .tracking 256000 = 2147484 ∧
    incrementOf Profile.default .k48 .disabled 0 = 4473924 ∧
    incrementOf { Profile.default with f := 6000 } .k96 .disabled 0 = 2684355 := by decide

/-- 06, worked figures: the canceller, one position of each sign. -/
theorem test_canceller :
    ((humStage { Profile.default with h := 1, mu := 8 } 9 [0] Filter.zero 5000).2.a[0] = 4999 ∧
      (humStage { Profile.default with h := 1, mu := 8 } 9 [0] Filter.zero 5000).2.b[0] = 0 ∧
      (humStage { Profile.default with h := 1, mu := 8 } 9 [0] Filter.zero 5000).2.phase = 9) ∧
    (humStage { Profile.default with h := 1, mu := 8 } 9 [0] Filter.zero (-5000)).2.a[0] = -5000 ∧
    humEstimate [0] { Filter.zero with a := Filter.zero.a.set 0 4999 } = 19 := by decide +kernel

/-- 07, worked sequence: the ladder. -/
def ladder : Profile :=
  { Profile.default with
    levels := #v[0, 2000, 8000, 64000, 64000, 64000, 64000, 64000, 64000, 64000, 64000, 64000]
    alphas := #v[4096, 8192, 16384, 32768, 32768, 32768, 32768, 32768, 32768, 32768, 32768, 32768] }

/-- 07, worked sequence: four positions of the Hiss Filter. -/
theorem test_hiss :
    [3000, 3000, -2000, 0].foldl (hissStage ladder) { Filter.zero with y := 1000, v := 40000 } =
      { Filter.zero with y := 679, v := 39873 } := by decide +kernel

/-- 07, worked figures: 16-bit delivery, NEAREST and TRUNCATE. -/
theorem test_delivery :
    [1234567, -1234567, 1152, 1408, -1152, -1408, -1, 8388480, 8388607, -8388608].map (deliveredWord .w16 .nearest) =
      [4823, -4823, 4, 6, -4, -6, 0, 32767, 32767, -32768] ∧
    [1234567, -1234567, 1152, 1408, -1152, -1408, -1, 8388480, 8388607, -8388608].map (deliveredWord .w16 .truncate) =
      [4822, -4822, 4, 5, -4, -5, 0, 32767, 32767, -32768] := by decide

/-! ### States the witnesses use -/

/-- The part after reset with the link of port A UP. -/
def up : State := State.reset.setPort .A { PortRec.reset with link := .up, firstUp := false }

/-- Port A changed. -/
def withPort (f : PortRec → PortRec) : State := up.modPort .A f

/-- Request `r`, its header naming `lane`, waits alone in the queue of port A. -/
def asks (s : State) (lane : Byte) (r : Request) : State :=
  s.modPort .A fun q => { q with queue := [.whole 7 lane r] }

/-- Lane 0 as a LANE OPEN leaves it: slots 0 to 7, port A to port A. -/
def fresh : Lane :=
  { Lane.reset with
    state := .active
    ring := List.range 8
    hold := 1
    blocks := { state := .filling } :: List.replicate 7 {}
    active := some ⟨Profile.default, 0, 0⟩ }

def withLane (s : State) (l : Lane) : State := s.setLane 0 l

/-- The pool spent by the reserve of lane 1. -/
def spent (l : Lane) : State := (withLane up l).setLane 1 { fresh with reserve := 4096 }

/-- A record of one position with both anchors. -/
def record (start : Nat) (st : RecState) (d : Disp) : Record := ⟨start, 1, .click, .detector, st, d, 80, some 0, some 0⟩

/-- A frame with this header and payload and a right CRC. -/
def framed (body : List Byte) : List Byte := body ++ beBytes 4 (crc32 body)

/-- A SAMPLES frame of `n` 24-bit words of 0 at position `pos` for lane 0. -/
def samplesOf (flags : Byte) (pos n : Nat) : List Byte :=
  inboundFrame kindSamples 0#8 flags 0#8 0#16
    (beBytes 4 pos ++ [BitVec.ofNat 8 n] ++ List.replicate (3 * n) 0#8)

/-! ### Steps and frames -/

theorem witness_CommandsOutOfTurn :
    State.reset.cannotTake .A (.whole 7 0 .sync) ∧ ¬ State.reset.due (.go 0) ∧
    entryTaken (.editForce .A 7 0 ⟨1, 0, 0, 0⟩) = none ∧
    (asks up 0 .sync).cannotTake .A (.malformed 7 0) ∧
    entryTaken (.malformedEntry .A 7 0) = some (.A, .malformed 7 0) ∧
    ((up.port .A).link = .up ∧ (up.port .A).inProgress = none ∧ (up.port .A).queue = []) :=
  ⟨.inl rfl, by simp only [State.due]; decide, by decide, .inr (.inr ⟨.whole 7 0 .sync, [], rfl, by decide⟩), rfl, rfl, rfl, rfl⟩

/-- A line searching at a tick of no sample. -/
def searchingLine : Line :=
  { Line.reset .low with state := .searching, enable := true, n := 1, prescaler := 1 }

/-- Line 0 so, the others DISABLED. -/
def searching : State := State.reset.setLine 0 searchingLine

theorem searchingLine_inRange : searchingLine.inRange := by simp [Line.inRange, searchingLine, Line.reset]

theorem resetLine_inRange : (Line.reset .low).inRange := by simp [Line.inRange, Line.reset]

theorem witness_EmptyQueueStepIsOneTick :
    searching.pending = [] ∧ (searching.line 3).enable = false ∧ (searching.line 0 = searchingLine ∧ ∀ k : Fin 3, searching.line (k.succ) = Line.reset .low) ∧
    ∀ k, (searching.line k).enable = true →
      ¬((searching.line k).sampleDue = true ∧ (searching.line k).sampleMatters = true) ∧
      (searching.line k).deadline ≠ some searching.tick :=
  ⟨rfl, rfl, ⟨rfl, by decide⟩, by decide⟩

theorem witness_FormedRequestFrameJoinsTheQueue :
    ((withPort fun q => { q with queue := List.replicate 7 (.unknown 7 0) }).port .A).link = .up ∧
    ((withPort fun q => { q with queue := List.replicate 7 (.unknown 7 0) }).port .A).queue.length < 8 := by decide

/-- What checks 1 to 4 of R155 read of a frame: enough bytes, its CRC right, its kind, its length field and the length of
its payload. -/
def readings (b : List Byte) : Bool × Bool × Byte × Nat × Nat :=
  (decide (12 ≤ b.length), frameCrcOk b, byteAt b 0, fieldAt b 6 2, b.length - 12)

/-- A full queue; a length field that is off; an unknown code; a known code whose payload is one byte too long; and a
whole request, of the fewest bytes a frame may have. -/
theorem witness_RequestFrameArrival :
    (up.port .A).link = .up ∧
    ((withPort fun q => { q with queue := List.replicate 8 (.unknown 7 0) }).port .A).queue.length = 8 ∧
    readings (framed [1, 0, 0, 0x14, 0, 7, 0, 1]) = (true, true, 1, 1, 0) ∧
    readings (framed [1, 0, 0, 0x99, 0, 7, 0, 0]) = (true, true, 1, 0, 0) ∧ requestLength 0x99 = none ∧
    readings (framed [1, 0, 0, 0x13, 0, 7, 0, 2, 1, 1]) = (true, true, 1, 2, 2) ∧ requestLength 0x13 = some 1 ∧
    readings (requestFrameOf 0 0 7 .sync) = (true, true, 1, 0, 0) ∧ requestLength 0x14 = some 0 := by
  decide +kernel

/-- Each check of R155 and R156 failed once: a frame of 11 bytes; a wrong CRC; a kind of neither inbound code; a length
field that is off; a payload of 4 bytes, one of a count it does not hold, and one that names lane 6. -/
theorem witness_DiscardedFrameOnlyCounts :
    (up.port .A).link = .up ∧ (up.port .A).width = .w24 ∧ (List.replicate 11 0#8).length < 12 ∧
    readings (List.replicate 12 0#8) = (true, false, 0, 0, 0) ∧
    readings (framed [3, 0, 0, 0, 0, 0, 0, 0]) = (true, true, 3, 0, 0) ∧
    readings (framed [2, 0, 0, 0, 0, 0, 0, 1]) = (true, true, 2, 1, 0) ∧
    readings (framed [2, 0, 0, 0, 0, 0, 0, 4, 0, 0, 0, 0]) = (true, true, 2, 4, 4) ∧
    readings (framed [2, 0, 0, 0, 0, 0, 0, 6, 0, 0, 0, 0, 1, 0]) = (true, true, 2, 6, 6) ∧
    readings (framed [2, 6, 0, 0, 0, 0, 0, 8, 0, 0, 0, 0, 1, 0, 0, 0]) = (true, true, 2, 8, 8) := by
  and_intros <;> decide +kernel

theorem hears_lane0 : up.hearsSamples .A (samplesOf 0 0 1) 0 ∧ up.hearsSamples .A (samplesOf 1 0 1) 0 ∧
    up.hearsSamples .A (samplesOf 0 254 1) 0 ∧ up.hearsSamples .A (samplesOf 0 2047 1) 0 := by
  unfold State.hearsSamples
  decide +kernel

/-- Hearing a frame reads no lane. -/
theorem hears_withLane {bytes : List Byte} {L : LaneId} (l : Lane) (h : up.hearsSamples .A bytes L) :
    (withLane up l).hearsSamples .A bytes L := h

/-- A CLOSED lane, a lane of another source, a DRAINING lane, and a held lane that has had its four frames. -/
theorem witness_SamplesFrameDropped :
    (∀ l, (withLane up l).hearsSamples .A (samplesOf 0 0 1) 0 ∧ (withLane up l).lane 0 = l) ∧
    Lane.reset.state = .closed ∧ { fresh with source := .B }.source ≠ .A ∧
    ({ fresh with state := .draining }.source = .A ∧ { fresh with state := .draining }.state = .draining) ∧
    (fresh.source = .A ∧ fresh.state = .active ∧ { fresh with held := true, afterHold := 4 }.held = true ∧
      { fresh with held := true, afterHold := 4 }.afterHold = 4) :=
  ⟨fun l => ⟨hears_withLane l hears_lane0.1, rfl⟩, by decide⟩

/-- The last position but one of the first block. -/
def nearlyFull : State := withLane up { fresh with fill := 254 }

/-- The frames of the clauses: placed, trimmed, at the start, beyond the fill point, and over the block's end. -/
theorem hears_placements : up.hearsSamples .A (samplesOf 0 253 2) 0 ∧ up.hearsSamples .A (samplesOf 0 1 1) 0 ∧
    up.hearsSamples .A (samplesOf 0 254 2) 0 ∧ up.hearsSamples .A (samplesOf 1 255 1) 0 := by
  unfold State.hearsSamples
  decide +kernel

/-- A sample at the fill point; one before it, also where the positions have ended; a frame that begins before it; one that
begins beyond it; one that runs over the block's end; and a held lane with a landed frame, and with no slot. -/
theorem witness_SamplesArePlacedAtTheFillPoint :
    (nearlyFull.storeWf ∧ (nearlyFull.lane 0).source = .A ∧ (∀ l, (withLane up l).lane 0 = l)) ∧
    ((nearlyFull.lane 0).takesWithinBlock (sampleCount (framePayload (samplesOf 0 254 1))) ∧
      (byteAt (samplesOf 0 254 1) 2).getLsbD 0 = false ∧ fieldAt (samplesOf 0 254 1) 8 4 = 254) ∧
    ((nearlyFull.lane 0).canPlace = true ∧ (nearlyFull.lane 0).landing = [] ∧
      { fresh with fill := 4294967296 }.fill = 4294967296 ∧ { fresh with fill := 4294967296 }.landing = [] ∧
      fieldAt (samplesOf 0 0 1) 8 4 + sampleCount (framePayload (samplesOf 0 0 1)) ≤ 254) ∧
    (fieldAt (samplesOf 0 253 2) 8 4 < 254 ∧ 254 < 253 + sampleCount (framePayload (samplesOf 0 253 2)) ∧
      (nearlyFull.lane 0).takesWithinBlock (253 + 2 - 254)) ∧
    ((withLane up fresh).storeWf ∧ fresh.fill < fieldAt (samplesOf 0 1 1) 8 4 ∧
      fresh.takesWithinBlock (1 + sampleCount (framePayload (samplesOf 0 1 1)) - 0) ∧ fresh.list = [] ∧
      (withLane up fresh).canTake 0 = true) ∧
    ((nearlyFull.lane 0).takesWithinBlock 0 ∧ (nearlyFull.lane 0).ringAsOpened ∧ (nearlyFull.lane 0).inRing 1 = true ∧
      ((nearlyFull.lane 0).block 1).state = .free ∧ 256 ≤ 254 + sampleCount (framePayload (samplesOf 0 254 2))) ∧
    ({ fresh with held := true, landing := [⟨0, [none], false⟩] }.landing ≠ [] ∧ fresh.afterHold ≠ 4 ∧
      { fresh with held := true, fill := 2048 }.canPlace = false) := by
  unfold State.storeWf Lane.takesWithinBlock Lane.ringAsOpened
  and_intros
  any_goals decide +kernel
  exact fun _ => rfl

/-- The eighth block of a ring of eight, one position short, with nothing released. -/
def lastSlot : State :=
  withLane up { fresh with fill := 2047, blocks := List.replicate 7 {} ++ [{ state := .filling }] }

theorem witness_HoldIsSentWhenTheRingIsFull :
    lastSlot.hearsSamples .A (samplesOf 0 2047 1) 0 ∧
    ((lastSlot.lane 0).source = .A ∧ (lastSlot.lane 0).state = .active ∧ (lastSlot.lane 0).held = false ∧
      (lastSlot.lane 0).landing = [] ∧ (lastSlot.lane 0).piece = none ∧ (lastSlot.lane 0).gapStop = none) ∧
    ((lastSlot.lane 0).start ≤ (lastSlot.lane 0).fill ∧ (lastSlot.lane 0).final = none ∧
      (lastSlot.lane 0).inRing ((lastSlot.lane 0).ord (lastSlot.lane 0).fill) = true ∧
      ((lastSlot.lane 0).block ((lastSlot.lane 0).ord (lastSlot.lane 0).fill)).state = .filling) ∧
    sampleCount (framePayload (samplesOf 0 2047 1)) = 1 ∧ (lastSlot.lane 0).fill = 2047 ∧
    (lastSlot.lane 0).oldest + (lastSlot.lane 0).ring.length = (lastSlot.lane 0).ord (lastSlot.lane 0).fill + 1 ∧
    (byteAt (samplesOf 0 2047 1) 2).getLsbD 0 = false ∧ fieldAt (samplesOf 0 2047 1) 8 4 = 2047 := by
  unfold State.hearsSamples
  decide +kernel

/-- A lane with one position placed and one record, and the current piece. -/
def gapped (r : Record) (piece : Option Piece) : Lane := { fresh with fill := 1, list := [r], piece := piece }

/-- A GAP piece over position 0 in the unlisted slot. -/
def unlistedPiece : Lane := { fresh with fill := 1, piece := some (.unlisted 0 1) }

/-- A span in the unlisted slot. -/
def unlistedSpan : Span := ⟨.unlisted, .growing, 0, 4, 1023, false, 2, 2, 64, 9, 3, 2, false, 0⟩

/-- A piece of 1,024 positions that ends at the fill point. -/
def fullPiece : Lane :=
  { fresh with
    fill := 1024
    blocks := List.replicate 4 {} ++ [{ state := .filling }] ++ List.replicate 3 {}
    list := [{ record 0 .opened .applied with length := 1024 }]
    piece := some (.listed 0) }

/-- An empty list and a record to be had; a piece that follows on, one of 1,024 positions, a LIVE APPLIED record behind, an OPEN one behind; the
same two ahead; no record to be had, with the slot free and occupied; and a sample placed after an unlisted piece. -/
theorem witness_MissingPositionsOpenAGapPiece :
    (up.hearsSamples .A (samplesOf 1 0 1) 0 ∧ up.hearsSamples .A (samplesOf 1 1 1) 0 ∧
      up.hearsSamples .A (samplesOf 0 1 1) 0 ∧ (∀ l, (withLane up l).lane 0 = l ∧ (spent l).lane 0 = l)) ∧
    ((withLane up fresh).storeWf ∧ fresh.source = .A ∧
      fresh.takesWithinBlock (sampleCount (framePayload (samplesOf 1 0 1))) ∧
      (byteAt (samplesOf 1 0 1) 2).getLsbD 0 = true ∧ fieldAt (samplesOf 1 0 1) 8 4 = fresh.fill ∧
      fresh.list = [] ∧ (withLane up fresh).canTake 0 = true) ∧
    ((byteAt (samplesOf 1 1 1) 2).getLsbD 0 = true ∧ fieldAt (samplesOf 1 1 1) 8 4 = 1 ∧
      sampleCount (framePayload (samplesOf 1 1 1)) = 1 ∧ { fresh with fill := 1 }.takesWithinBlock 1 ∧
      fresh.ringAsOpened) ∧
    ((gapped (record 0 .opened .applied) (some (.listed 0))).piece = some (.listed (record 0 .opened .applied).start) ∧
      (record 0 .opened .applied).start + (record 0 .opened .applied).length = 1 ∧
      (record 0 .live .applied).state = .live ∧ ¬((record 0 .opened .applied).state = .live)) ∧
    ((record 2 .live .applied).start = 1 + 1 ∧
      (withLane up (gapped (record 2 .live .applied) none)).canTake 0 = true) ∧
    ((spent { fresh with fill := 1 }).canTake 0 = false ∧
      (spent { fresh with fill := 1, span := some unlistedSpan }).canTake 0 = false ∧ unlistedSpan.form = .unlisted) ∧
    (up.hearsSamples .A (samplesOf 1 1024 1) 0 ∧ fieldAt (samplesOf 1 1024 1) 8 4 = fullPiece.fill ∧
      (byteAt (samplesOf 1 1024 1) 2).getLsbD 0 = true ∧ sampleCount (framePayload (samplesOf 1 1024 1)) = 1 ∧
      { fullPiece with piece := none }.takesWithinBlock 1 ∧ (withLane up fullPiece).canTake 0 = true ∧
      fullPiece.runEnded = false ∧ { fullPiece with runEnded := true }.runEnded = true) ∧
    (fresh.oldest ≤ 0 ∧ fresh.lastOf 0 = 255) ∧
    ((byteAt (samplesOf 0 1 1) 2).getLsbD 0 = false ∧ unlistedPiece.piece = some (.unlisted 0 1) ∧
      0 + 1 = unlistedPiece.fill) := by
  unfold State.hearsSamples State.storeWf Lane.takesWithinBlock Lane.ringAsOpened
  and_intros
  any_goals decide +kernel
  exact fun _ => ⟨rfl, rfl⟩

/-! ### Requests of the ports -/

/-- A request that waits alone in port A's queue is offered. -/
theorem asks_offers {s : State} (lane : Byte) (r : Request) (h : (s.port .A).link = .up ∧ (s.port .A).inProgress = none) :
    (asks s lane r).offers .A (.whole 7 lane r) [] := ⟨h.1, h.2, rfl⟩

theorem up_ready : (up.port .A).link = .up ∧ (up.port .A).inProgress = none := ⟨rfl, rfl⟩

/-- Every request is offered in some state, whatever lane it names and however lane 0 stands. -/
theorem offers_any (lane : Byte) (r : Request) (l : Lane) :
    (asks (withLane up l) lane r).offers .A (.whole 7 lane r) [] ∧ (asks (withLane up l) lane r).lane 0 = l ∧
    ((asks (withLane up l) lane r).lane 5).state = .closed := ⟨⟨rfl, rfl, rfl⟩, rfl, rfl⟩

/-- The first lane number past the last, and the last. -/
theorem lane_numbers : 5 < (6#8 : Byte).toNat ∧ (5#8 : Byte).toNat = (5 : LaneId).val ∧
    (0#8 : Byte).toNat = (0 : LaneId).val := by decide

theorem witness_MalformedUnknownAndIdentifyAreAnswered :
    (withPort fun q => { q with queue := [.malformed 7 0] }).offers .A (.malformed 7 0) [] ∧
    (withPort fun q => { q with queue := [.unknown 7 0] }).offers .A (.unknown 7 0) [] ∧
    (asks up 0 .identify).offers .A (.whole 7 0 .identify) [] :=
  ⟨⟨rfl, rfl, rfl⟩, ⟨rfl, rfl, rfl⟩, asks_offers _ _ up_ready⟩

theorem witness_PortSetupAndNoticeMaskSetTheSendingPort :
    (asks up 0 (.portSetup 24 1 0)).offers .A (.whole 7 0 (.portSetup 24 1 0)) [] ∧
    (asks up 0 (.noticeMask #v[1, 0, 2, 0, 0, 1])).offers .A (.whole 7 0 (.noticeMask #v[1, 0, 2, 0, 0, 1])) [] :=
  ⟨asks_offers _ _ up_ready, asks_offers _ _ up_ready⟩

/-- The last lane and the first number past it, the last port and the first number past it, the first undefined form. -/
theorem witness_ConditionReportsCounters :
    (∀ form which, (asks up 0 (.condition form which)).offers .A (.whole 7 0 (.condition form which)) []) ∧
    5 < (6#8 : Byte).toNat ∧ (5#8 : Byte).toNat = (5 : LaneId).val ∧ 1 < (2#8 : Byte).toNat ∧ 1#8 = portByte .B ∧
    (2#8 ≠ 0#8 ∧ 2#8 ≠ 1#8) ∧ ((up.lane 5).state = .closed ∧ (up.lane 5).everOpened = false) ∧
    (fresh.closed.state = .closed ∧ fresh.closed.everOpened = true) :=
  ⟨fun _ _ => asks_offers _ _ up_ready, by decide⟩

/-! ### Links and resets -/

theorem witness_LinkEventsReachTheirPortAlone :
    (up.port .A).link = .up ∧ (State.reset.port .A).link = .down ∧ (State.reset.port .A).firstUp = true := ⟨rfl, rfl, rfl⟩

theorem witness_ResetsRestoreEveryBlock : (asks up 0 .unitReset).offers .A (.whole 7 0 .unitReset) [] :=
  asks_offers _ _ up_ready

/-! ### Lanes -/

/-- The settings of a LANE OPEN that R2 takes: ports A and A, 48 kHz, a ring of 8, hold depth 1, no reserve, slot 0, no
line, start 0, 24 bits, NEAREST, log off. -/
def settings : LaneOpenArgs := ⟨0, 0, 0, 8, 1, 0, 0, 0xFF, 0, 24, 0, 0⟩

/-- The first ring sizes past either end and between two sizes, the first reserve, slot and line past the range, and
settings at the ends of their ranges. -/
theorem open_refused : openRefused { settings with ringSize := 0 } ∧ openRefused { settings with ringSize := 72 } ∧
    openRefused { settings with ringSize := 9 } ∧ openRefused { settings with reserve := 1025 } ∧
    openRefused { settings with slot := 32 } ∧ openRefused { settings with line := 4 } ∧ ¬ openRefused settings ∧
    ¬ openRefused { settings with ringSize := 64, reserve := 1024, slot := 31, line := 3 } := by
  and_intros <;> unfold openRefused <;> decide

/-- A lane number of 6; an open lane; refused settings; 63 slots unheld where 64 are asked; a pool one record short. -/
theorem witness_LaneOpenRefusals :
    (∀ lane a l, (asks (withLane up l) lane (.laneOpen a)).offers .A (.whole 7 lane (.laneOpen a)) [] ∧
      (asks (withLane up l) lane (.laneOpen a)).lane 0 = l ∧
      ((asks (withLane up l) lane (.laneOpen a)).lane 5).state = .closed) ∧ fresh.state ≠ .closed ∧
    (withLane up { fresh with ring := List.range 193 }).freeSlots.length = 63 ∧
    (withLane up { fresh with reserve := 3073 }).freeCommon = 1023 :=
  ⟨fun _ _ _ => offers_any _ _ _, by decide, by decide +kernel, by decide +kernel⟩

/-- The last lane, the largest settings, a pool and slots with room to spare. -/
theorem witness_LaneOpenOpensTheLane :
    (∀ a, (asks up 5 (.laneOpen a)).offers .A (.whole 7 5 (.laneOpen a)) []) ∧ (5#8 : Byte).toNat = (5 : LaneId).val ∧
    (up.lane 5).state = .closed ∧ (31#8 : Byte).toNat = (31 : Fin 32).val ∧ up.freeSlots.length = 256 ∧
    up.freeCommon = 4096 :=
  ⟨fun _ => asks_offers _ _ up_ready, by decide, rfl, by decide, by decide +kernel, by decide +kernel⟩

theorem witness_LaneCloseAbandonsTheLane :
    (∀ lane l, (asks (withLane up l) lane .laneClose).offers .A (.whole 7 lane .laneClose) [] ∧
      (asks (withLane up l) lane .laneClose).lane 0 = l ∧
      ((asks (withLane up l) lane .laneClose).lane 5).state = .closed) ∧ fresh.state ≠ .closed :=
  ⟨fun _ _ => offers_any _ _ _, by decide⟩

/-- Port A with four parked requests, and lane 0 ACTIVE. -/
def busy (l : Lane) : State :=
  withLane (withPort fun q => { q with parked := List.replicate 4 ⟨1, 0, .drain⟩ }) l

/-- A lane with one position placed, and one with none. -/
theorem witness_LaneDrainIsRefusedOrParked :
    (∀ lane l, (asks (withLane up l) lane .laneDrain).offers .A (.whole 7 lane .laneDrain) [] ∧
      (asks (withLane up l) lane .laneDrain).lane 0 = l ∧
      ((asks (withLane up l) lane .laneDrain).lane 5).state = .closed) ∧
    (asks (busy fresh) 0 .laneDrain).offers .A (.whole 7 0 .laneDrain) [] ∧
    ((asks (busy fresh) 0 .laneDrain).port .A).parkedCount = 4 ∧
    ((asks (withLane up fresh) 0 .laneDrain).port .A).parkedCount = 0 ∧
    { fresh with fill := 1 }.release < { fresh with fill := 1 }.fill ∧
    (fresh.fill = fresh.start ∧ fresh.release = fresh.start ∧ fresh.landing = [] ∧ fresh.logQueue = [] ∧
      fresh.final = none) :=
  ⟨fun _ _ => offers_any _ _ _, asks_offers _ _ ⟨rfl, rfl⟩, by decide⟩

theorem witness_LaneStatusReportsTheLane :
    (∀ lane l, (asks (withLane up l) lane .laneStatus).offers .A (.whole 7 lane .laneStatus) [] ∧
      (asks (withLane up l) lane .laneStatus).lane 0 = l ∧
      ((asks (withLane up l) lane .laneStatus).lane 5).state = .closed) ∧ fresh.state ≠ .closed :=
  ⟨fun _ _ => offers_any _ _ _, by decide⟩

/-! ### The Repair List and the Edit Unit -/

/-- The four rows and the undefined action 5; a conditional EDIT with no reservation. -/
theorem witness_EditChecksCommonToTheFourActions :
    entryTaken (.editVeto .A 7 6 ⟨5, 1, 0, 0⟩) = some (.A, .whole 7 6 (.edit ⟨5, 1, 0, 0⟩)) ∧
    entryTaken (.editVeto .A 7 0 ⟨1, 1, 0, 0⟩) = some (.A, .whole 7 0 (.edit ⟨1, 1, 0, 0⟩)) ∧
    entryTaken (.editRestore .A 7 0 ⟨2, 1, 0, 0⟩) = some (.A, .whole 7 0 (.edit ⟨2, 1, 0, 0⟩)) ∧
    entryTaken (.editForce .A 7 0 ⟨3, 1, 0, 0⟩) = some (.A, .whole 7 0 (.edit ⟨3, 1, 0, 0⟩)) ∧
    entryTaken (.editSplice .A 7 0 ⟨4, 1, 0, 0⟩) = some (.A, .whole 7 0 (.edit ⟨4, 1, 0, 0⟩)) ∧
    (∀ lane a l, (asks (withLane up l) lane (.edit a)).offers .A (.whole 7 lane (.edit a)) [] ∧
      (asks (withLane up l) lane (.edit a)).lane 0 = l ∧
      ((asks (withLane up l) lane (.edit a)).lane 5).state = .closed) ∧
    ∀ v, (up.port .A).reservation = some v → v.lane ≠ 0 :=
  ⟨by decide, by decide, by decide, by decide, by decide, fun _ _ _ => offers_any _ _ _, nofun⟩

/-- Lane 0 with one record at position 10, in each state and disposition; and none at position 11. -/
theorem witness_VetoAndRestoreChangeTheDisposition :
    (∀ a l, (asks (withLane up l) 0 (.edit a)).offers .A (.whole 7 0 (.edit a)) [] ∧
      (asks (withLane up l) 0 (.edit a)).lane 0 = l) ∧ fresh.state ≠ .closed ∧
    (∀ st d, { fresh with list := [record 10 st d] }.list.find? (fun r : Record => r.start == (10#32 : Word).toNat) =
      some (record 10 st d)) ∧
    { fresh with list := [record 10 .live .applied] }.list.find? (fun r : Record => r.start == (11#32 : Word).toNat) = none :=
  ⟨fun _ _ => ⟨(offers_any _ _ _).1, rfl⟩, by decide, fun _ _ => rfl, rfl⟩

/-- The first and the last ring entry. -/
theorem witness_EditMarksTheBlocksItTouches :
    0 < fresh.ring.length ∧ fresh.blocks.length = fresh.ring.length ∧ fresh.oldest ≤ 0 ∧
    7 < fresh.oldest + fresh.ring.length := by decide

/-- Lane 0 behind whose analysis point, 3, a FORCE of position 1 lies. -/
def forced : Lane := { fresh with fill := 3, analysis := 3 }

/-- The lengths 0 and 1,025, and an end past the top; a span at position 0, and one whose before-position is released; the
last span before the analysis point and the first that reaches it; a record right after the span; and a pool with no
record, and with one. -/
theorem witness_ForceAddsARecord :
    (∀ a l, (asks (withLane up l) 0 (.edit a)).offers .A (.whole 7 0 (.edit a)) [] ∧
      (asks (withLane up l) 0 (.edit a)).lane 0 = l) ∧ forced.state ≠ .closed ∧
    (0#16 : Half).toNat = 0 ∧ 1024 < (1025#16 : Half).toNat ∧
    4294967296 < (4294967295#32 : Word).toNat + (2#16 : Half).toNat ∧ ¬ 4294967296 < 1 + 1 ∧
    (1 - 1 < { forced with release := 1 }.release ∧ forced.release ≤ 1 - 1) ∧
    ({ forced with analysis := 2 }.analysis ≤ 1 + 1 ∧ 1 + 1 < forced.analysis) ∧
    ((record 2 .live .applied).start ≤ 1 + 1 ∧ 1 - 1 ≤ (record 2 .live .applied).last ∧
      ¬ (record 2 .live .applied).last ≤ 1) ∧
    ((withLane up forced).setList 0 []).canTake 0 = true ∧ ((spent forced).setList 0 []).canTake 0 = false :=
  ⟨fun _ _ => ⟨(offers_any _ _ _).1, rfl⟩, by decide +kernel⟩

/-- Lane 0 with enough placed for a SPLICE about position 65, whose first position is 1. -/
def spliced : Lane := { fresh with fill := 200, analysis := 3 }

/-- A centre below Ls, and one whose end lies past the top; a first position of 0, and one whose before-position is
released; the last end allowed ahead of the analysis point and the next; the pool with no record, and with one. -/
theorem witness_SpliceAddsARecord :
    (∀ a l, (asks (withLane up l) 0 (.edit a)).offers .A (.whole 7 0 (.edit a)) [] ∧
      (asks (withLane up l) 0 (.edit a)).lane 0 = l) ∧ spliced.state ≠ .closed ∧
    spliced.active = some ⟨Profile.default, 0, 0⟩ ∧ Profile.default.ls = 64 ∧
    ((63#32 : Word).toNat < 64 ∧ 4294967295 < (4294967232#32 : Word).toNat + 64) ∧ (64#32 : Word).toNat - 64 = 0 ∧
    (0 < (65#32 : Word).toNat - 64 ∧ spliced.release ≤ (65#32 : Word).toNat - 64 - 1 ∧
      (65#32 : Word).toNat - 64 - 1 < { spliced with release := 1 }.release) ∧
    ((16322#32 : Word).toNat + 64 ≤ spliced.analysis + 16383 ∧ spliced.analysis + 16383 < (16323#32 : Word).toNat + 64) ∧
    ((record 130 .live .applied).start ≤ 129 + 1 ∧ 1 - 1 ≤ (record 130 .live .applied).last ∧
      ¬ (record 130 .live .applied).last ≤ 129) ∧ ¬ 129 + 1 < { spliced with finished := true }.analysis ∧
    ((withLane up spliced).setList 0 []).canTake 0 = true ∧ ((spent spliced).setList 0 []).canTake 0 = false :=
  ⟨fun _ _ => ⟨(offers_any _ _ _).1, rfl⟩, by decide, rfl, rfl, by decide, by decide, by decide, by decide, by decide,
    by decide +kernel, by decide +kernel⟩

/-- A lane from position 5 on with a block and a half placed and its first block released: the position before the start,
one in a block not begun, one in the released block, and the first of the block at the fill point. -/
def begun : Lane := { fresh with start := 5, fill := 262, analysis := 262, render := 261, release := 261 }

theorem witness_ReserveSetsThePortsReservation :
    (∀ lane pos l, (asks (withLane up l) lane (.reserve pos)).offers .A (.whole 7 lane (.reserve pos)) [] ∧
      (asks (withLane up l) lane (.reserve pos)).lane 0 = l ∧
      ((asks (withLane up l) lane (.reserve pos)).lane 5).state = .closed) ∧ begun.state ≠ .closed ∧
    (4#32 : Word).toNat < begun.start ∧ begun.fill ≤ begun.start + 256 * (((517#32 : Word).toNat - begun.start) / 256) ∧
    begun.start + 256 * (((260#32 : Word).toNat - begun.start) / 256) < begun.release ∧
    begun.release ≤ begun.start + 256 * (((261#32 : Word).toNat - begun.start) / 256) ∧
    begun.start + 256 * (((261#32 : Word).toNat - begun.start) / 256) < begun.fill :=
  ⟨fun _ _ _ => offers_any _ _ _, by decide⟩

/-- Counts of 0, 1, 16 and 17, on an open lane and on a CLOSED one. -/
theorem witness_CursorSetAndListRead :
    (∀ lane pos l, (asks (withLane up l) lane (.cursorSet pos)).offers .A (.whole 7 lane (.cursorSet pos)) [] ∧
      (asks (withLane up l) lane (.cursorSet pos)).lane 0 = l) ∧
    (∀ lane n l, (asks (withLane up l) lane (.listRead n)).offers .A (.whole 7 lane (.listRead n)) [] ∧
      (asks (withLane up l) lane (.listRead n)).lane 0 = l) ∧
    (up.port .A).cursor = ⟨0, 0⟩ ∧ fresh.state ≠ .closed ∧ Lane.reset.state = .closed ∧
    ((0#8 : Byte).toNat < 1 ∧ 1 ≤ (1#8 : Byte).toNat ∧ (16#8 : Byte).toNat ≤ 16 ∧ 16 < (17#8 : Byte).toNat) :=
  ⟨fun _ _ _ => ⟨(offers_any _ _ _).1, rfl⟩, fun _ _ _ => ⟨(offers_any _ _ _).1, rfl⟩, rfl, by decide⟩

/-- A lane whose oldest block is DIRTY under the mark of the present edit number. -/
def dirtyLane : Lane :=
  { fresh with blocks := { state := .dirty, rendered := true, mark := some 0 } :: List.replicate 7 {} }

/-- A lane with nothing to wait for; one that waits, its port with no parked request, and with four. -/
theorem witness_SyncIsAnsweredOrParked :
    (∀ lane l, (asks (withLane up l) lane .sync).offers .A (.whole 7 lane .sync) [] ∧
      (asks (withLane up l) lane .sync).lane 0 = l ∧ ((asks (withLane up l) lane .sync).lane 5).state = .closed) ∧
    (asks (busy dirtyLane) 0 .sync).offers .A (.whole 7 0 .sync) [] ∧
    ((asks (busy dirtyLane) 0 .sync).port .A).parkedCount = 4 ∧
    ((asks (withLane up dirtyLane) 0 .sync).port .A).parkedCount = 0 ∧
    (dirtyLane.oldest ≤ 0 ∧ 0 < dirtyLane.oldest + dirtyLane.ring.length ∧ (dirtyLane.block 0).state = .dirty ∧
      (dirtyLane.block 0).mark = some dirtyLane.edit) ∧
    (∀ b ∈ fresh.blocks, b.state ≠ .dirty ∧ b.state ≠ .rendering) :=
  ⟨fun _ _ => offers_any _ _ _, asks_offers _ _ ⟨rfl, rfl⟩, by decide⟩

/-! ### The Profile Library -/

/-- A record that nothing clamps. -/
def inside : ProfileRaw :=
  { slot6 with t := 8, g := 8, ls := 511, f := 1000, mu := 4, levels := Vector.replicate 12 8388607
               alphas := Vector.replicate 12 32768 }

/-- The first slot past the last, the first undefined mode, levels that decrease, thresholds out of order; the last slot
with a record that is clamped and with one that is not. -/
theorem witness_ProfileWriteClampsAndReplaces :
    (∀ slot r, (asks up 0 (.profileWrite slot r)).offers .A (.whole 7 0 (.profileWrite slot r)) []) ∧
    31 < (32#8 : Byte).toNat ∧ (31#8 : Byte).toNat = (31 : Fin 32).val ∧ 1 < (2#8 : Byte).toNat ∧
    (clampedProfile { slot6 with levels := slot6.levels.set 4 30000 } .tracked).levels[4] <
      (clampedProfile { slot6 with levels := slot6.levels.set 4 30000 } .tracked).levels[3] ∧
    (7 < (8#16 : Half).toNat ∧ { slot6 with g2 := 1 }.g2.toNat < slot6.g1.toNat ∧
      { slot6 with g3 := 7 }.g3.toNat < slot6.g2.toNat) ∧
    clampedProfile slot6 .tracked ≠ carriedProfile slot6 .tracked ∧
    clampedProfile inside .tracked = carriedProfile inside .tracked :=
  ⟨fun _ _ => asks_offers _ _ up_ready, by decide, by decide, by decide, by decide +kernel, by decide, by decide +kernel,
    by decide +kernel⟩

/-- Each form with the last number it takes and the first past it; a lane with a RETIRING copy and one without. -/
theorem witness_ProfileReadReturnsARecord :
    (∀ form which l, (asks (withLane up l) 0 (.profileRead form which)).offers .A
        (.whole 7 0 (.profileRead form which)) [] ∧ (asks (withLane up l) 0 (.profileRead form which)).lane 0 = l ∧
      ((asks (withLane up l) 0 (.profileRead form which)).lane 5).state = .closed) ∧
    (2 < (3#8 : Byte).toNat ∧ 31 < (32#8 : Byte).toNat ∧ (31#8 : Byte).toNat = (31 : Fin 32).val ∧
      5 < (6#8 : Byte).toNat) ∧ fresh.state ≠ .closed ∧ fresh.retiring = none ∧
    fresh.active = some ⟨Profile.default, 0, 0⟩ ∧
    { fresh with retiring := some ⟨Profile.default, 5, 0⟩ }.retiring = some ⟨Profile.default, 5, 0⟩ :=
  ⟨fun _ _ _ => offers_any _ _ _, by decide, by decide, rfl, rfl, rfl⟩

/-- A lane with a RETIRING copy; the last generation and the one before it; a block that carries generation 0, and none. -/
theorem witness_RefreshAndRetiringCopies :
    (∀ lane slot l, (asks (withLane up l) lane (.refresh slot)).offers .A (.whole 7 lane (.refresh slot)) [] ∧
      (asks (withLane up l) lane (.refresh slot)).lane 0 = l ∧
      ((asks (withLane up l) lane (.refresh slot)).lane 5).state = .closed) ∧
    (31 < (32#8 : Byte).toNat ∧ (31#8 : Byte).toNat = (31 : Fin 32).val) ∧
    { fresh with active := some ⟨Profile.default, 4294967295, 0⟩ }.active = some ⟨Profile.default, 4294967295, 0⟩ ∧
    (fresh.oldest ≤ 0 ∧ 0 < fresh.oldest + fresh.ring.length ∧
      { fresh with analysis := 1 }.start + 256 * 0 < { fresh with analysis := 1 }.analysis ∧
      (up.store.checkpoint (fresh.slotOf 0)).latch.generation = 0) ∧ ¬ fresh.start + 256 * 0 < fresh.analysis ∧
    { fresh with retiring := some ⟨Profile.default, 5, 0⟩ }.retiring = some ⟨Profile.default, 5, 0⟩ ∧
    ∀ n, (up.store.checkpoint n).latch.generation ≠ 5 :=
  ⟨fun _ _ _ => offers_any _ _ _, by decide, rfl, by decide, by decide, rfl, fun _ => nofun⟩

/-! ### Perforation lines -/

/-- The first line past the last, the last line, the first undefined enable and sense, and every defined pair. -/
theorem witness_TransportSetupSetsTheLine :
    (∀ a, (asks up 0 (.transportSetup a)).offers .A (.whole 7 0 (.transportSetup a)) []) ∧
    3 < (4#8 : Byte).toNat ∧ (3#8 : Byte).toNat = (3 : LineId).val ∧ 1 < (2#8 : Byte).toNat ∧
    (1#8 : Byte).toNat ≤ 1 ∧ (up.line 3).enable = false ∧ (searching.line 0).enable = true :=
  ⟨fun _ => asks_offers _ _ up_ready, by decide⟩

theorem witness_LineCommandsRunTheCounterToTheirTick :
    Instr.perforationEdge 3 0 = .perforationEdge 3 0 ∨ Instr.perforationEdge 3 0 = .coastTimeout 3 0 := .inl rfl

/-- At the present tick the counter has nothing to run. -/
theorem runTo_now (s : State) : s.runTo s.tick = s.event := by
  have h : ∀ u : State, u.runFor 0 = u := by
    intro u
    unfold State.runFor runTicks
    split
    · rfl
    · simp [State.passTicks]
  simp [State.runTo, h]

/-- Line 0 as `l` at tick 10,000. -/
def lineAt (l : Line) : State := ({ State.reset with tick := 10000 } : State).setLine 0 l

theorem lineAt_now (l : Line) : ((lineAt l).runTo 10000).line 0 = l := by
  rw [show (10000 : Tick) = (lineAt l).tick from rfl, runTo_now]
  rfl

/-- Periods of 4,095 and 4,096 ticks at tick 10,000, and two periods that just agree and just do not. -/
theorem witness_PerforationEdgeIsCaptured :
    (∀ l, ((lineAt l).runTo 10000).line 0 = l) ∧ (Line.reset .low).state = .disabled ∧
    { searchingLine with state := .coast }.coastEdge = false ∧
    { searchingLine with state := .coast, coastEdge := true }.coastEdge = true ∧ searchingLine.reference = none ∧
    searchingLine.state = .searching ∧ searchingLine.recent = [] ∧
    ((10000#24 : Tick) - 5905#24).toNat = 4095 ∧ ((10000#24 : Tick) - 5904#24).toNat = 4096 ∧
    8 * ((4096 : Int) - (4680 : Nat)).natAbs ≤ 4680 ∧ ¬ 8 * ((4096 : Int) - (4682 : Nat)).natAbs ≤ 4682 ∧
    [4680, 4680].getLast? = some 4680 :=
  ⟨lineAt_now, by decide⟩

/-- A timeout due at tick 10,000 in each of the three states. -/
theorem witness_LineTimeoutsExpire :
    (∀ l, ((lineAt l).runTo 10000).line 0 = l) ∧
    { searchingLine with silence := 10000 - 8 * 65536 }.silence + BitVec.ofNat 24 (searchingLine.tc * 65536) = 10000 ∧
    { searchingLine with silence := 10000 - 64 * 65536 }.silence + BitVec.ofNat 24 (searchingLine.tl * 65536) = 10000 :=
  ⟨lineAt_now, by decide, by decide⟩

/-- A lane bound to line 3, and no lane bound. -/
theorem witness_LineEventsReachTheBoundLanes :
    NoticeCode.lineTracking.category = 1 ∧
    (((withLane up { fresh with line := some 3 }).lane 0).state ≠ .closed ∧
      ((withLane up { fresh with line := some 3 }).lane 0).line = some 3) ∧ ∀ L, (up.lane L).state = .closed := by
  decide

/-- A line with no sample due; and one with a sample due, its level unknown, equal, opposite, and opposite for the third
time. -/
theorem witness_FilterSampleJudgesTheLevel :
    (∀ l, ((lineAt l).runTo 10000).line 0 = l) ∧ (Line.reset .low).enable = false ∧
    ({ searchingLine with prescaler := 0 }.enable = true ∧ { searchingLine with prescaler := 0 }.prescaler = 0 ∧
      { searchingLine with prescaler := 0 }.sampled = false ∧ { searchingLine with prescaler := 0 }.settled = none) ∧
    { searchingLine with prescaler := 0, settled := some .low, run := 2 }.settled = some .low ∧
    { searchingLine with prescaler := 0, settled := some .low, run := 2 }.run = 2 ∧
    { searchingLine with prescaler := 0, settled := some .low, run := 1 }.run ≠ 2 :=
  ⟨lineAt_now, by decide⟩

/-! ### The outbound arbiter -/

/-- A lane whose oldest block may be released, its ring's next block rendered too. -/
def releasable : Lane :=
  { fresh with
    fill := 512
    analysis := 512
    render := 512
    blocks := [{ state := .rendered, rendered := true }, { state := .rendered, rendered := true }] ++
      List.replicate 6 {} }

/-- The same with a LOG frame waiting for the record at 10. -/
def logging : Lane := { releasable with list := [record 10 .frozen .applied], logQueue := [⟨0, [10], false⟩] }

def response : Response := ⟨7, 0, .done, [0x14#8], false⟩

theorem witness_ArbiterTakesTheFirstClass :
    (State.reset.port .A).link = .down ∧
    ((withPort fun q => { q with flow := [⟨0, true, 5⟩] }).chosen .A = some (.flow ⟨0, true, 5⟩)) ∧
    ((withPort fun q => { q with answers := [response] }).chosen .A = some (.response response)) ∧
    (((withPort fun q => { q with entries := q.entries.set 41 (some ⟨.linkUp, 1, 0, 0, 3⟩) }).chosen .A =
      some (.notice 41 ⟨.linkUp, 1, 0, 0, 3⟩))) ∧
    (withLane up releasable).presented .A ((up.port .A).pointer + 1 + 0) = some (.restored 0) ∧
    (∀ L, up.presented .A L = none) ∧ up.chosen .A = none := by
  and_intros <;> decide +kernel

theorem witness_FlowResponseAndNoticeAreTaken :
    (withPort fun q => { q with flow := [⟨0, false, 5⟩] }).chosen .A = some (.flow ⟨0, false, 5⟩) ∧
    (withPort fun q => { q with answers := [{ response with ofParked := true }] }).chosen .A =
      some (.response { response with ofParked := true }) ∧
    (withPort fun q => { q with entries := q.entries.set 0 (some ⟨.laneOpened, 1, 0, 0, 3⟩) }).chosen .A =
      some (.notice 0 ⟨.laneOpened, 1, 0, 0, 3⟩) := by
  and_intros <;> decide +kernel

/-- The same with every slot taken, the lane held for the one the release frees. -/
def waiting : Lane := { releasable with fill := 2048, analysis := 2048, held := true }

/-- A DRAINING lane of one short block, rendered and wholly analysed, with one record that ends beyond it. -/
def lastBlock (log : Bool) : Lane :=
  { fresh with
    state := .draining, fill := 2, analysis := 2, render := 2, finished := true, final := some 0, log := log
    blocks := { state := .rendered, rendered := true } :: List.replicate 7 {}
    list := [{ record 1 .live .applied with length := 9 }] }

/-- A lane with room, one held for the freed slot, and the final block of a DRAINING lane with its log on and off. -/
theorem witness_ReleaseHandsOverTheOldestBlock :
    ((withLane up releasable).chosen .A = some (.restored 0) ∧ releasable.state = .active ∧ releasable.landing = [] ∧
      releasable.final = none) ∧
    ((withLane up waiting).chosen .A = some (.restored 0) ∧ waiting.ringAsOpened ∧
      waiting.start ≤ waiting.release ∧ waiting.fill = waiting.firstOf (waiting.oldest + waiting.ring.length) ∧ waiting.fill < 4294967296 ∧
      (up.port waiting.source).link = .up) ∧
    (∀ log, (withLane up (lastBlock log)).chosen .A = some (.restored 0) ∧ (lastBlock log).landing = [] ∧
      (lastBlock log).final = some ((lastBlock log).firstOf (lastBlock log).oldest) ∧
      (lastBlock log).release = (lastBlock log).firstOf (lastBlock log).oldest ∧
      (lastBlock log).firstOf (lastBlock log).oldest < (lastBlock log).fill) := by
  unfold Lane.ringAsOpened
  and_intros <;> decide +kernel

theorem witness_LogFrameTakenFreesItsRecords :
    (withLane up logging).chosen .A = some (.log 0) ∧ logging.logQueue = [⟨0, [10], false⟩] ∧ logging.state = .active ∧
    logging.landing = [] := by
  and_intros <;> decide +kernel

/-! ### The Render Engine -/

/-- A lane whose first block has just passed its margin. -/
def analysed : Lane :=
  { fresh with fill := 264, analysis := 264, blocks := [{ state := .analysed }, { state := .filling }] ++ List.replicate 6 {} }

/-- The same block DIRTY after a render. -/
def dirtied : Lane :=
  { analysed with
    render := 256
    blocks := [{ state := .dirty, rendered := true, mark := some 0 }, { state := .filling }] ++ List.replicate 6 {} }

/-- A render in flight of the first block of lane 0. -/
def inFlight (abandoned : Bool) : Render :=
  ⟨0, 0, 0, 256, .first, none, abandoned, List.replicate 256 0, [], Latch.zero, Profile.default, Filter.zero⟩

/-- The first lane after the pointer with an ANALYSED block, and with a DIRTY one; a render in flight; and no block at
all. -/
theorem witness_RenderStartGrantsAndTakesTheSnapshot :
    (withLane up analysed).engine.inFlight = none ∧ (withLane up analysed).engine.pointer + 1 + 0 = (0 : LaneId) ∧
    (analysed.oldest ≤ 0 ∧ 0 < analysed.oldest + analysed.ring.length ∧ analysed.oldest + analysed.ring.length = 8) ∧
    (analysed.startable 0 = true ∧ ∀ i, i < 8 → ¬((analysed.block i).state = .dirty)) ∧
    (dirtied.startable 0 = true ∧ (dirtied.block 0).state = .dirty) ∧
    ((withLane up analysed).setEngine ⟨0, some (inFlight false)⟩).engine.inFlight ≠ none ∧
    ∀ L : LaneId, (up.lane L).ring = [] := by
  and_intros <;> decide +kernel

theorem witness_RenderCompletionWritesItsResult :
    (∀ b, (up.setEngine ⟨0, some (inFlight b)⟩).engine.inFlight = some (inFlight b) ∧ (inFlight b).abandoned = b) ∧
    (up.setEngine ⟨0, some (inFlight false)⟩).storeWf ∧
    (2 ≤ analysed.ring.length ∧ analysed.blocks.length = analysed.ring.length) :=
  ⟨fun _ => ⟨rfl, rfl⟩, by unfold State.storeWf; decide, by decide⟩

/-! ### Events of lanes -/

theorem witness_SyncAnswerAnswersTheSatisfied :
    (⟨1, 0, .sync 0⟩ : Parked).syncReady 0 fresh = true ∧ (⟨1, 0, .sync 0⟩ : Parked).syncReady 0 dirtyLane = false ∧
    ∃ k ∈ ((withPort fun q => { q with parked := [⟨1, 0, .sync 0⟩] }).port .A).parked,
      k.syncReady 0 (withLane up fresh |>.lane 0) = true :=
  ⟨by decide, by decide, ⟨1, 0, .sync 0⟩, by decide, by decide⟩

/-- A held lane with its slot FILLING; one with a landed frame of one sample; and one whose landed frame takes the last
position there is. -/
theorem witness_LandingPlacementAndGo :
    ({ fresh with held := true }.held = true ∧ fresh.state = .active ∧ fresh.landing = [] ∧ fresh.fill < 4294967296 ∧
      fresh.final = none ∧ fresh.inRing (fresh.ord fresh.fill) = true ∧
      (fresh.block (fresh.ord fresh.fill)).state = .filling) ∧
    (withLane up { fresh with held := true, landing := [⟨0, [some 0], false⟩] }).storeWf ∧
    { fresh with held := true, landing := [⟨0, [some 0], false⟩] }.landing = [⟨fresh.fill, [(0 : Int)].map some, false⟩] ∧
    fresh.takesWithinBlock 1 ∧ fresh.fill + 1 < 4294967296 ∧
    ({ fresh with start := 4294967290, fill := 4294967295, release := 4294967290 } : Lane).takesWithinBlock 1 ∧
    4294967295 + 1 = 4294967296 := by
  unfold State.storeWf Lane.takesWithinBlock
  and_intros <;> decide +kernel

/-- A DRAINING lane whose fill point lies on the boundary of a FILLING slot. -/
def drained (fill : Nat) : Lane :=
  { fresh with
    state := .draining, fill := fill
    blocks := [{ state := .filling }, { state := .filling }] ++ List.replicate 6 {} }

/-- One position placed, and a whole block; analysed and not; and a drained lane wholly analysed, with no span, a GROWING
one over its OPEN record, an unlisted one, and an unlisted piece. -/
theorem witness_DrainFixesTheFinalBlockAndFinishes :
    ((drained 1).start < (drained 1).fill ∧ (drained 256).release < (drained 256).fill ∧ (drained 256).landing = [] ∧
      (drained 256).final = none ∧ ((drained 256).fill - (drained 256).start) % 256 = 0 ∧
      (drained 256).inRing ((drained 256).ord 256) = true ∧
      ((drained 256).block ((drained 256).ord 256)).state = .filling ∧
      (drained 256).blocks.length = (drained 256).ring.length ∧ (drained 256).retiring = none ∧
      (drained 256).analysis ≠ (drained 256).fill ∧ { drained 256 with analysis := 256 }.analysis = 256) ∧
    ({ drained 1 with analysis := 1, final := some 0 }.final ≠ none ∧
      { drained 1 with analysis := 1, final := some 0 }.analysis = (drained 1).fill ∧ (drained 1).finished = false) ∧
    ({ unlistedSpan with form := .listed, start := 0 }.form = .listed ∧ unlistedSpan.phase = .growing ∧
      (record 0 .opened .applied).start = unlistedSpan.start ∧ unlistedPiece.piece = some (.unlisted 0 1)) := by
  and_intros <;> decide

theorem witness_DrainCompletionClosesTheLane :
    { fresh with state := .draining, fill := 1, release := 1, final := some 0 }.release = 1 ∧ fresh.landing = [] ∧
    fresh.logQueue = [] ∧ { fresh with state := .draining, fill := 1, release := 1, final := some 0 }.final ≠ none := by
  decide

/-! ### The Click Analyser -/

/-- Lane 0 with two positions placed, the second at 8,000 and next to be analysed, its history complete. -/
def second : Lane := { fresh with fill := 2, analysis := 1, suspend := 2 }

def secondAt (l : Lane) (missing : Cells Bool) : State :=
  (withLane up l).setStore { SampleStore.empty with raw := [(1, 8000)], missing := missing }

theorem witness_AnalysisTakesOnePositionAndLatches :
    (∀ l, (secondAt l []).storeWf ∧ (secondAt l []).lane 0 = l) ∧ second.state ≠ .closed ∧ second.analysis < second.fill ∧
    second.active = some ⟨Profile.default, 0, 0⟩ ∧ (fresh.analysis - fresh.start) % 256 = 0 ∧
    { fresh with fill := 1 }.analysis < { fresh with fill := 1 }.fill := by
  refine ⟨fun l => ⟨?_, rfl⟩, by decide, by decide, rfl, by decide, by decide⟩
  exact (by decide : ({ SampleStore.empty with raw := [(1, 8000)] } : SampleStore).wf = true)

/-- The span over position 0, with or without its record. -/
def zeroSpan (form : SpanForm) (phase : SpanPhase) : Span := ⟨form, phase, 0, 0, 1023, false, 0, 2, 64, 9, 3, 0, true, 0⟩

/-- A missing position; one under a LIVE APPLIED record; a valid one with suspension counts 1 and 2, not flagged at a
large envelope; the end of a GROWING span; and the position after a WAITING one's end, listed and unlisted. -/
theorem witness_UnflaggedPositionsMoveTheHistory :
    (secondAt second [(1, true)]).missingAt 0 second.analysis = true ∧
    ((record 1 .live .applied).start ≤ second.analysis ∧ second.analysis ≤ (record 1 .live .applied).last) ∧
    ((secondAt second []).missingAt 0 second.analysis = false ∧ second.state = .active ∧ second.span = none ∧
      second.list = []) ∧ { second with suspend := 1 }.suspend < 2 ∧
    64 * ((secondAt second []).rawAt 0 1 - 2 * second.x1 + second.x2).natAbs ≤ 16000 * Profile.default.t ∧
    ({ zeroSpan .listed .growing with start := 1, last := 1 }.last = second.analysis ∧
      { zeroSpan .listed .growing with start := 1, last := 1 }.last = (record 1 .opened .applied).last) ∧
    ((zeroSpan .listed .waiting).last + 1 = second.analysis ∧ (zeroSpan .listed .waiting).last = (record 0 .live .applied).last ∧
      (record 0 .live .applied).start = (zeroSpan .listed .waiting).start) ∧
    ((zeroSpan .unlisted .waiting).form = .unlisted ∧ (zeroSpan .unlisted .waiting).last + 1 = second.analysis ∧
      second.start ≤ second.analysis ∧ second.fill ≤ second.analysis + 256 * second.ring.length) := by
  and_intros <;> decide +kernel

theorem default_inRange : Profile.default.inRange := by
  unfold Profile.inRange
  and_intros <;> decide +kernel

/-- A flagged sample with a record to be had, and with none; a record behind that its extent touches; one ahead at each
distance the clauses tell apart; and a GROWING span with room to grow. -/
theorem witness_FlaggedSampleOpensASpan :
    ((∀ l, (secondAt l []).lane 0 = l) ∧ (secondAt second []).missingAt 0 second.analysis = false ∧ (secondAt second []).canTake 0 = true) ∧
    (second.suspend = 2 ∧ second.start ≤ second.analysis ∧ Profile.default.inRange) ∧
    max second.envelope.toNat Profile.default.emin * Profile.default.t <
      64 * ((secondAt second []).rawAt 0 1 - 2 * second.x1 + second.x2).natAbs ∧
    (((spent second).setStore (secondAt second []).store).canTake 0 = false ∧ second.list = [] ∧ second.piece = none ∧
      unlistedPiece.piece = some (.unlisted 0 1)) ∧
    ((record 0 .live .applied).last < second.analysis ∧
      max (second.analysis - Profile.default.g) second.start ≤ (record 0 .live .applied).last + 1 ∧
      second.analysis + Profile.default.g + 1 - (record 0 .live .applied).start ≤ 1024) ∧
    (second.analysis < (record 2 .live .applied).start ∧
      (record 2 .live .applied).start ≤ second.analysis + Profile.default.g + 1 ∧
      (secondAt { second with list := [record 2 .live .applied] } []).canTake 0 = true) ∧
    (record 3 .opened .applied).start = second.analysis + 2 ∧
    (second.analysis + 2 < (record 4 .opened .applied).start ∧
      (record 4 .opened .applied).start ≤ second.analysis + Profile.default.g + 1) ∧
    ((record 2 .opened .applied).start = second.analysis + 1 ∧ (record 2 .opened .applied).before ≠ none) ∧
    ((zeroSpan .listed .growing).last <
        min (second.analysis + (zeroSpan .listed .growing).guard) (zeroSpan .listed .growing).cap ∧
      (zeroSpan .listed .growing).start = (record 0 .opened .applied).start ∧
      (record 0 .opened .applied).start ≤ (zeroSpan .listed .growing).opened) := by
  and_intros
  any_goals decide +kernel
  exact fun _ => rfl

/-! ### Arithmetic -/

theorem witness_RepairHumAndHissStayInRange :
    (inFlight false).profile.inRange ∧ (inFlight false).work.inRange ∧ (∀ x ∈ (inFlight false).raw, isSample x) ∧
    (∀ c ∈ (inFlight false).records, isSample c.before ∧ isSample c.after) ∧ 0 < 1 := by
  refine ⟨default_inRange, ?_, ?_, nofun, by decide⟩
  · unfold Filter.inRange isSample
    and_intros <;> decide +kernel
  · intro x hx
    rw [List.eq_of_mem_replicate hx]
    unfold isSample
    decide

theorem witness_DeliveredWordsFollowTheirRounding :
    (isSample (-8388608) ∧ isSample 8388607) ∧ (-32768 : Int) ≤ -32768 ∧ (32767 : Int) ≤ 32767 := by
  unfold isSample
  decide

/-! ### What every step keeps -/

theorem witness_StepKeepsTheStoreForm : (∃ t, step nearlyFull = .next t) ∧ nearlyFull.storeWf := by
  refine ⟨⟨_, rfl⟩, ?_⟩
  unfold State.storeWf
  decide

theorem witness_StepKeepsProfilesInRange : (∃ t, step up = .next t) ∧ up.profilesInRange := by
  refine ⟨⟨_, rfl⟩, fun i => ?_, fun L => ⟨?_, ?_⟩⟩
  · rw [show up.library[i.val] = Profile.default from Vector.getElem_replicate i.isLt]
    exact default_inRange
  all_goals
    intro w h
    have hn : ∀ M, (up.lane M).active = none ∧ (up.lane M).retiring = none := by decide
    simp [hn L] at h

theorem witness_StepKeepsThePortsBounded : (∃ t, step up = .next t) ∧ (up.port .A).bounded := by
  refine ⟨⟨_, rfl⟩, by decide, by decide, by decide, by decide, by decide, by decide, by decide, by decide, by decide,
    by decide, ?_, nofun⟩
  intro i e h
  rw [show (up.port .A).entries[i.val] = none from Vector.getElem_replicate i.isLt] at h
  cases h

theorem witness_StepKeepsTheLinesInRange : (∃ t, step searching = .next t) ∧ (searching.line 0).inRange :=
  ⟨⟨_, rfl⟩, searchingLine_inRange⟩

theorem witness_OpenLanesKeepTheirSettingsAndGoForward :
    step (withLane up fresh) = .next ((withLane up fresh).runFor 1) ∧ ((withLane up fresh).lane 0).state ≠ .closed ∧
    (((withLane up fresh).runFor 1).lane 0).state ≠ .closed :=
  ⟨rfl, by decide, by decide +kernel⟩

theorem witness_OnlyTheirEventsWriteTheLibraryAndSend : ∃ t, step { up with pending := [.resetPin] } = .next t := ⟨_, rfl⟩

end Sys2Proof.Tests
end

/-! PROOF. What the part's own work on a lane leaves unchanged: the frames of the analyser and of the GAP pieces
(`State.Works`), said once per operation and in the form in which a chain of operations composes. -/

namespace Sys2Proof.Machine
open Sys2Proof

/-! ### The parts of a frame -/

/-- What the analyser, the GAP pieces and the edits may change of their lane. The lane record, the points, the landing
buffer, the log queue, the working copies and the count of released blocks stand. -/
def Lane.Worked (l m : Lane) : Prop :=
  m = { l with
    blocks := m.blocks
    x1 := m.x1
    x2 := m.x2
    suspend := m.suspend
    envelope := m.envelope
    span := m.span
    armed := m.armed
    piece := m.piece
    runEnded := m.runEnded
    gapStop := m.gapStop
    list := m.list
    low := m.low
    edit := m.edit
    counters := m.counters } ∧
  m.counters[2] = l.counters[2]

theorem Lane.Worked.refl (l : Lane) : l.Worked l := ⟨rfl, rfl⟩

theorem Lane.Worked.trans {l m n : Lane} (h : l.Worked m) (h' : m.Worked n) : l.Worked n := by
  refine ⟨?_, h'.2.trans h.2⟩
  calc n = { m with blocks := n.blocks, x1 := n.x1, x2 := n.x2, suspend := n.suspend, envelope := n.envelope,
                    span := n.span, armed := n.armed, piece := n.piece, runEnded := n.runEnded,
                    gapStop := n.gapStop, list := n.list, low := n.low, edit := n.edit, counters := n.counters } := h'.1
    _ = _ := by rw [h.1]

theorem Lane.sameButPoolFlags.worked {l m : Lane} (h : l.sameButPoolFlags m) : l.Worked m := by
  unfold Lane.sameButPoolFlags at h
  rw [h]
  exact ⟨rfl, rfl⟩

theorem Lane.sameButPoolFlags_refl (l : Lane) : l.sameButPoolFlags l := rfl

theorem Lane.sameButPoolFlags_trans {l m n : Lane} (h : l.sameButPoolFlags m) (h' : m.sameButPoolFlags n) :
    l.sameButPoolFlags n := by
  unfold Lane.sameButPoolFlags at h h' ⊢
  calc n = { m with low := n.low, armed := n.armed } := h'
    _ = _ := by rw [h]

/-- What they may change of a port: its reservation and its notice entries. -/
def PortRec.Worked (q r : PortRec) : Prop := r = { q with reservation := r.reservation, entries := r.entries }

theorem PortRec.Worked.trans {q r u : PortRec} (h : q.Worked r) (h' : r.Worked u) : q.Worked u := by
  unfold PortRec.Worked at h h' ⊢
  calc u = { r with reservation := u.reservation, entries := u.entries } := h'
    _ = _ := by rw [h]

theorem PortRec.loseIf_worked (q : PortRec) (b : Reservation → Bool) : q.Worked (q.loseIf b) := rfl

/-- From `s` to `t` the part has worked on lane `L`: of the other lanes only the pool flags may differ, of the ports
only reservations and notices, of the Sample Store only the raw values. -/
structure State.Works (L : LaneId) (s t : State) : Prop where
  lane : (s.lane L).Worked (t.lane L)
  other : ∀ M, M ≠ L → (s.lane M).sameButPoolFlags (t.lane M)
  port : ∀ p, (s.port p).Worked (t.port p)
  store : t.store = { s.store with raw := t.store.raw }
  wf : s.store.wf = true → t.store.wf = true
  rest : t.engine = s.engine ∧ t.tick = s.tick ∧ t.lines = s.lines ∧ t.library = s.library ∧ t.events = s.events ∧
    t.pending = s.pending

namespace State.Works
variable {L : LaneId} {r s : State}

theorem refl (L : LaneId) (s : State) : s.Works L s :=
  ⟨.refl _, fun _ _ => rfl, fun _ => rfl, rfl, id, rfl, rfl, rfl, rfl, rfl, rfl⟩

theorem trans {t : State} (h : r.Works L s) (h' : s.Works L t) : r.Works L t where
  lane := h.lane.trans h'.lane
  other M hM := Lane.sameButPoolFlags_trans (h.other M hM) (h'.other M hM)
  port p := (h.port p).trans (h'.port p)
  store := by
    calc t.store = { s.store with raw := t.store.raw } := h'.store
      _ = _ := by rw [h.store]
  wf := h'.wf ∘ h.wf
  rest := by
    obtain ⟨h1, h2, h3, h4, h5, h6⟩ := h.rest
    obtain ⟨g1, g2, g3, g4, g5, g6⟩ := h'.rest
    exact ⟨g1.trans h1, g2.trans h2, g3.trans h3, g4.trans h4, g5.trans h5, g6.trans h6⟩

/-! ### The elementary updates -/

theorem setLane (h : r.Works L s) {l : Lane} (hl : (s.lane L).Worked l) : r.Works L (s.setLane L l) :=
  h.trans
    { lane := by rw [State.lane_setLane_same]; exact hl
      other := fun M hM => by rw [State.lane_setLane_ne _ _ _ _ hM]; rfl
      port := fun p => by rw [State.port_setLane]; rfl
      store := rfl
      wf := id
      rest := ⟨rfl, rfl, rfl, rfl, rfl, rfl⟩ }

theorem modLane (h : r.Works L s) {f : Lane → Lane} (hf : ∀ l : Lane, l.Worked (f l)) : r.Works L (s.modLane L f) :=
  h.setLane (hf _)

theorem modPort (h : r.Works L s) (p : Port) {f : PortRec → PortRec} (hf : ∀ q : PortRec, q.Worked (f q)) :
    r.Works L (s.modPort p f) :=
  h.trans
    { lane := by rw [State.lane_modPort]; exact .refl _
      other := fun M _ => by rw [State.lane_modPort]; rfl
      port := fun q => by
        cases p <;> cases q
        · exact hf _
        · rfl
        · rfl
        · exact hf _
      store := by rw [State.modPort_store]
      wf := by rw [State.modPort_store]; exact id
      rest := by simp }

theorem setStore (h : r.Works L s) {m : SampleStore} (hm : m = { s.store with raw := m.raw })
    (hw : s.store.wf = true → m.wf = true) : r.Works L (s.setStore m) :=
  h.trans ⟨.refl _, fun _ _ => rfl, fun p => by rw [State.port_setStore]; rfl, hm, hw, rfl, rfl, rfl, rfl, rfl, rfl⟩

theorem foldl {α : Type} {f : State → α → State} (hf : ∀ (t : State) (a : α), r.Works L t → r.Works L (f t a)) :
    ∀ (as : List α) {t : State}, r.Works L t → r.Works L (as.foldl f t)
  | [], _, h => h
  | a :: as, _, h => foldl hf as (hf _ a h)

/-! ### Notices, pool and reservations -/

theorem raiseTo (h : r.Works L s) (p : Port) (c : NoticeCode) (who : Option LaneId) (pos d : Nat) :
    r.Works L (s.raiseTo p c who pos d) :=
  h.modPort p fun _ => rfl

theorem raise (h : r.Works L s) (c : NoticeCode) (who : Option LaneId) (pos d : Nat) :
    r.Works L (s.raise c who pos d) :=
  (h.raiseTo .A c who pos d).raiseTo .B c who pos d

/-- The pool flags of any lane may be set: of lane `L` they are its own, of another lane they are all that changes. -/
theorem setPoolFlags (h : r.Works L s) (M : LaneId) (low armed : Bool) :
    r.Works L (s.setLane M { s.lane M with low := low, armed := armed }) := by
  by_cases hM : M = L
  · subst hM
    exact h.setLane ⟨rfl, rfl⟩
  · refine h.trans ⟨?_, fun K _ => ?_, fun p => ?_, rfl, id, rfl, rfl, rfl, rfl, rfl, rfl⟩
    · rw [State.lane_setLane_ne _ _ _ _ (Ne.symm hM)]
      exact .refl _
    · by_cases hK : K = M
      · subst hK
        rw [State.lane_setLane_same]
        rfl
      · rw [State.lane_setLane_ne _ _ _ _ hK]
        rfl
    · rw [State.port_setLane]
      rfl

theorem assessLane (h : r.Works L s) (M : LaneId) : r.Works L (s.assessLane M) := by
  unfold State.assessLane
  dsimp only
  split
  · split
    · exact (h.setPoolFlags M _ _).raise _ _ _ _
    · exact h.setPoolFlags M _ _
  · exact h

theorem assess (h : r.Works L s) : r.Works L s.assess :=
  foldl (fun _ M ht => ht.assessLane M) laneIds h

theorem recordTouched (h : r.Works L s) (M : LaneId) (lo hi : Nat) : r.Works L (s.recordTouched M lo hi) :=
  (h.modPort .A fun q => q.loseIf_worked _).modPort .B fun q => q.loseIf_worked _

theorem recordEdited (h : r.Works L s) (p : Port) (M : LaneId) (lo hi : Nat) :
    r.Works L (s.recordEdited p M lo hi) :=
  h.modPort _ fun q => q.loseIf_worked _

/-! ### Counters, lists and marks -/

theorem count (h : r.Works L s) {c : Ctr} (hc : c ≠ .released) : r.Works L (s.count L c) :=
  h.modLane fun l => ⟨rfl, by cases c <;> first | exact absurd rfl hc | simp [Lane.count, Ctr.index]⟩

theorem setList (h : r.Works L s) (rs : List Record) : r.Works L (s.setList L rs) := h.modLane fun _ => ⟨rfl, rfl⟩

theorem setPiece (h : r.Works L s) (p : Option Piece) : r.Works L (s.setPiece L p) := h.modLane fun _ => ⟨rfl, rfl⟩

theorem setSpan (h : r.Works L s) (sp : Option Span) : r.Works L (s.setSpan L sp) := h.modLane fun _ => ⟨rfl, rfl⟩

end State.Works

theorem Lane.setBlock_worked (l : Lane) (j : Nat) (b : Block) : l.Worked (l.setBlock j b) := ⟨rfl, rfl⟩

theorem Lane.markWhere_worked (l : Lane) (lo hi n : Nat) (f : Block → Bool) : l.Worked (l.markWhere lo hi n f) := by
  unfold Lane.markWhere
  generalize l.ordinals = js
  suffices ∀ m, l.Worked m → l.Worked (js.foldl
      (fun m j => if m.blockMeets j lo hi && f (m.block j) then m.setBlock j ((m.block j).marked n) else m) m) from
    this l (.refl l)
  induction js with
  | nil => exact fun _ h => h
  | cons j js ih =>
    intro m h
    refine ih _ ?_
    dsimp only
    split
    · exact h.trans (m.setBlock_worked _ _)
    · exact h

theorem Lane.mergeMark_worked (l : Lane) (lo hi : Nat) : l.Worked (l.mergeMark lo hi) := by
  unfold Lane.mergeMark
  dsimp only
  split
  · exact Lane.Worked.trans ⟨rfl, rfl⟩ (Lane.markWhere_worked _ _ _ _ _)
  · exact Lane.markWhere_worked _ _ _ _ _

theorem Lane.editMark_worked (l : Lane) (lo hi : Nat) : l.Worked (l.editMark lo hi) :=
  Lane.Worked.trans (m := l.raiseEdit) ⟨rfl, rfl⟩ (Lane.markWhere_worked _ _ _ _ _)

theorem SampleStore.foldl_setRaw {α : Type} (k : α → Nat) (v : α → Int) (is : List α) (m : SampleStore) :
    let t := is.foldl (fun m i => m.setRaw (k i) (v i)) m
    t = { m with raw := t.raw } ∧ (m.wf = true → t.wf = true) := by
  induction is generalizing m with
  | nil => exact ⟨rfl, id⟩
  | cons i is ih =>
    obtain ⟨he, hw⟩ := ih (m.setRaw (k i) (v i))
    exact ⟨he, fun h => hw (SampleStore.setRaw_wf _ _ _ h)⟩

namespace State.Works
variable {L : LaneId} {r s : State}

theorem merged (h : r.Works L s) (lo hi : Nat) : r.Works L (s.merged L lo hi) :=
  (h.modLane fun l => l.mergeMark_worked lo hi).recordTouched L lo hi

theorem writeUnlisted (h : r.Works L s) (start len : Nat) (b : Int) : r.Works L (s.writeUnlisted L start len b) :=
  have hw := SampleStore.foldl_setRaw (fun i => (s.lane L).cell (start + i))
    (interpolate (s.anchorBefore L start) b len) (List.range len) s.store
  h.setStore hw.1 hw.2

theorem countUnlisted (h : r.Works L s) (start : Nat) : r.Works L (s.countUnlisted L start) := by
  have ht : r.Works L (s.modLane L fun l =>
      let j := l.ord start
      let b := l.block j
      { (l.setBlock j { b with tally := b.tally + 1 }).count .unlisted with armed := false }) :=
    h.modLane fun l => ⟨rfl, by simp [Lane.count, Lane.counter, Lane.setBlock, Ctr.index]⟩
  unfold State.countUnlisted
  dsimp only at ht ⊢
  split
  · exact ht.raise _ _ _ _
  · exact ht

/-! ### GAP pieces -/

theorem closePiece (h : r.Works L s) (x : Int) : r.Works L (s.closePiece L x) := by
  unfold State.closePiece
  dsimp only
  split
  · exact h
  · split
    · exact h.setPiece _
    · exact ((h.setList _).setPiece _).recordTouched _ _ _
  · exact (h.writeUnlisted _ _ _).setPiece _

theorem dropGap (h : r.Works L s) : r.Works L (s.dropGap L) := h.count (by decide)

theorem setGapStop (h : r.Works L s) (g : Option Nat) : r.Works L (s.modLane L fun l => { l with gapStop := g }) :=
  h.modLane fun _ => ⟨rfl, rfl⟩

theorem stopGap (h : r.Works L s) (st : Nat) : r.Works L (s.stopGap L st) := (h.setGapStop _).dropGap

theorem absorbAhead (h : r.Works L s) (st : Nat) (n : Record) : r.Works L (s.absorbAhead L st n) :=
  (h.setList _).assess.merged _ _

theorem takePiece (h : r.Works L s) (m : Nat) : r.Works L (s.takePiece L m) := by
  unfold State.takePiece
  dsimp only
  split
  · refine (State.Works.assess (h.modLane fun l => ⟨rfl, ?_⟩)).recordTouched _ _ _
    simp [Lane.count, Ctr.index]
  · split
    · exact h.dropGap
    · exact ((h.count (by decide)).setPiece _).countUnlisted _

theorem openPiece (h : r.Works L s) (m : Nat) : r.Works L (s.openPiece L m) := by
  unfold State.openPiece
  split
  · exact h.takePiece m
  · split
    · exact h.takePiece m
    · split
      · exact (h.takePiece m).absorbAhead _ _
      · exact h.stopGap _

theorem reopenPiece (h : r.Works L s) (p : Record) (m : Nat) : r.Works L (s.reopenPiece L p m) := by
  unfold State.reopenPiece
  dsimp only
  split
  · exact ((h.setList _).setPiece _).merged _ _
  · split
    · exact ((h.setList _).setPiece _).merged _ _
    · split
      · exact (((h.setList _).setPiece _).merged _ _).absorbAhead _ _
      · exact h.stopGap _

theorem attemptPiece (h : r.Works L s) (m : Nat) (exempt : Option Nat) : r.Works L (s.attemptPiece L m exempt) := by
  unfold State.attemptPiece
  dsimp only
  split
  · exact h.dropGap
  · split
    · exact (h.setGapStop _).openPiece m
    · split
      · exact (h.setGapStop _).openPiece m
      · split
        · exact (h.setGapStop _).reopenPiece _ m
        · exact (h.setGapStop _).dropGap

theorem nextPiece (h : r.Works L s) (m : Nat) (own : Option Nat) : r.Works L (s.nextPiece L m own) :=
  (h.closePiece 0).attemptPiece m own

theorem extendPiece (h : r.Works L s) (m : Nat) : r.Works L (s.extendPiece L m) := by
  unfold State.extendPiece
  dsimp only
  split
  · exact h.attemptPiece _ _
  · split
    · exact h.attemptPiece _ _
    · split
      · split
        · exact ((h.setList _).setPiece _).recordTouched _ _ _
        · split
          · exact ((h.setList _).setPiece _).recordTouched _ _ _
          · split
            · exact (((h.setList _).setPiece _).recordTouched _ _ _).absorbAhead _ _
            · exact (h.setGapStop _).nextPiece _ _
      · exact h.nextPiece _ _
  · split
    · split
      · exact h.setPiece _
      · split
        · exact h.setPiece _
        · exact (h.setGapStop _).nextPiece _ _
    · exact h.nextPiece _ _

theorem coverMissing (h : r.Works L s) (m : Nat) : r.Works L (s.coverMissing L m) := by
  unfold State.coverMissing
  split
  · exact h.attemptPiece _ _
  · split
    · exact h
    · exact h.extendPiece m

theorem coverValid (h : r.Works L s) (m : Nat) (x : Int) : r.Works L (s.coverValid L m x) := by
  unfold State.coverValid
  dsimp only
  split
  · exact h.setGapStop _
  · split
    · exact (h.setGapStop _).modLane fun _ => ⟨rfl, rfl⟩
    · exact (h.setGapStop _).closePiece x

/-! ### The analyser -/

theorem endSpan (h : r.Works L s) (sp : Span) (x : Int) : r.Works L (s.endSpan L sp x) := by
  unfold State.endSpan
  dsimp only
  split
  · exact ((h.setList _).setSpan _).recordTouched _ _ _
  · exact (h.writeUnlisted _ _ _).setSpan _

theorem takeAnchors (h : r.Works L s) (n : Nat) : r.Works L (s.takeAnchors L n) :=
  foldl (fun _ _ ht => ht.recordTouched _ _ _) _ (h.setList _)

theorem dueAnchors (h : r.Works L s) (n : Nat) : r.Works L (s.dueAnchors L n) := by
  unfold State.dueAnchors
  refine takeAnchors ?_ n
  split
  · split
    · exact h.endSpan _ _
    · exact h
  · exact h

theorem closeSpan (h : r.Works L s) (sp : Span) : r.Works L (s.closeSpan L sp) := by
  unfold State.closeSpan
  dsimp only
  split
  · exact h.setSpan _
  · have hu := fun rs => ((h.setSpan (some { sp with phase := .waiting })).setList rs).recordTouched L sp.start sp.last
    split
    · split
      · exact (hu _).count (by decide)
      · exact (hu _).count (by decide)
      · exact hu _
    · exact hu _

theorem dropSpan (h : r.Works L s) : r.Works L (s.dropSpan L) := h.count (by decide)

theorem mergedTimes (h : r.Works L s) (lo hi k : Nat) : r.Works L (mergedTimes L lo hi k s) := by
  induction k generalizing s with
  | zero => exact h
  | succ k ih => exact ih (h.merged lo hi)

theorem beginListed (h : r.Works L s) (sp : Span) (base : Record) (ns : List Record) :
    r.Works L (s.beginListed L sp base ns) := by
  unfold State.beginListed
  extract_lets before taken t u
  have htaken : r.Works L taken := by
    unfold taken
    split
    · exact State.Works.assess (h.modLane fun _ => ⟨rfl, rfl⟩)
    · exact h
  have ht : r.Works L t := (htaken.setList _).assess
  exact State.Works.recordTouched ((ht.mergedTimes _ _ _).setSpan _) _ _ _

theorem openSpan (h : r.Works L s) (n m e : Nat) : r.Works L (s.openSpan L n m e) := by
  unfold State.openSpan
  extract_lets
  split
  extract_lets
  split
  · exact h.dropSpan
  · split
    · exact h.beginListed _ _ _
    · exact State.Works.countUnlisted (h.setSpan _) _

theorem growSpan (h : r.Works L s) (sp : Span) (n m e : Nat) : r.Works L (s.growSpan L sp n m e) := by
  unfold State.growSpan
  extract_lets
  split
  extract_lets _ t
  have ht : r.Works L t := h.setSpan _
  split
  · extract_lets base rs u v
    have hv : r.Works L v := State.Works.mergedTimes (ht.setList rs).assess _ _ _
    split
    · exact hv
    · exact hv.recordTouched _ _ _
  · exact ht

theorem testPosition (h : r.Works L s) (n : Nat) (x : Int) : r.Works L (s.testPosition L n x) := by
  unfold State.testPosition
  dsimp only
  split
  · refine modLane ?_ fun _ => ⟨rfl, rfl⟩
    split
    · exact h.openSpan _ _ _
    · split
      · exact h.growSpan _ _ _ _
      · exact h
  · exact h.setLane ⟨rfl, rfl⟩

theorem classify (h : r.Works L s) (n : Nat) : r.Works L (s.classify L n) := by
  unfold State.classify
  dsimp only
  split
  · exact h.setLane ⟨rfl, rfl⟩
  · split
    · exact h.setLane ⟨rfl, rfl⟩
    · exact h.testPosition _ _

theorem closeAt (h : r.Works L s) (n : Nat) : r.Works L (s.closeAt L n) := by
  unfold State.closeAt
  split
  · split
    · exact h.closeSpan _
    · exact h
  · exact h

end State.Works

end Sys2Proof.Machine

/-! PROOF. What the Lane Controller's placement leaves unchanged (`State.Places`): besides the work on the lane it
moves the fill point forward, fills the landing buffer, may hold the lane, and enters HOLDs in the flow lists. -/

namespace Sys2Proof.Machine
open Sys2Proof

/-- What placement may change of its lane. Beside `Lane.Worked`: the fill point, which does not go back, the landing
buffer, and the held state, which stands once set. -/
def Lane.Placed (l m : Lane) : Prop :=
  m = { l with
    fill := m.fill
    blocks := m.blocks
    landing := m.landing
    held := m.held
    afterHold := m.afterHold
    x1 := m.x1
    x2 := m.x2
    suspend := m.suspend
    envelope := m.envelope
    span := m.span
    armed := m.armed
    piece := m.piece
    runEnded := m.runEnded
    gapStop := m.gapStop
    list := m.list
    low := m.low
    edit := m.edit
    counters := m.counters } ∧
  m.counters[2] = l.counters[2] ∧ l.fill ≤ m.fill ∧ (l.held = true → m.held = true)

theorem Lane.Worked.placed {l m : Lane} (h : l.Worked m) : l.Placed m := by
  obtain ⟨he, hc⟩ := h
  refine ⟨?_, hc, ?_, ?_⟩
  · rw [he]
  · rw [he]
  · rw [he]
    exact id

theorem Lane.Placed.refl (l : Lane) : l.Placed l := (Lane.Worked.refl l).placed

theorem Lane.Placed.trans {l m n : Lane} (h : l.Placed m) (h' : m.Placed n) : l.Placed n := by
  obtain ⟨he, hc, hf, hh⟩ := h
  obtain ⟨he', hc', hf', hh'⟩ := h'
  refine ⟨?_, hc'.trans hc, hf.trans hf', hh' ∘ hh⟩
  calc n = { m with fill := n.fill, blocks := n.blocks, landing := n.landing, held := n.held,
                    afterHold := n.afterHold, x1 := n.x1, x2 := n.x2, suspend := n.suspend,
                    envelope := n.envelope, span := n.span, armed := n.armed, piece := n.piece,
                    runEnded := n.runEnded, gapStop := n.gapStop, list := n.list, low := n.low, edit := n.edit,
                    counters := n.counters } := he'
    _ = _ := by rw [he]

/-- What placement may change of a port. Beside reservation and notices: its flow list, which gains no GO. -/
def PortRec.Placed (q r : PortRec) : Prop :=
  r = { q with flow := r.flow, reservation := r.reservation, entries := r.entries } ∧
  ∀ e ∈ r.flow, e.hold = false → e ∈ q.flow

theorem PortRec.Worked.placed {q r : PortRec} (h : q.Worked r) : q.Placed r := by
  unfold PortRec.Worked at h
  rw [h]
  exact ⟨rfl, fun _ he _ => he⟩

theorem PortRec.Placed.trans {q r u : PortRec} (h : q.Placed r) (h' : r.Placed u) : q.Placed u := by
  refine ⟨?_, fun e he hg => h.2 e (h'.2 e he hg) hg⟩
  calc u = { r with flow := u.flow, reservation := u.reservation, entries := u.entries } := h'.1
    _ = _ := by rw [h.1]

/-- From `s` to `t` the part has placed positions of lane `L`. -/
structure State.Places (L : LaneId) (s t : State) : Prop where
  lane : (s.lane L).Placed (t.lane L)
  other : ∀ M, M ≠ L → (s.lane M).sameButPoolFlags (t.lane M)
  port : ∀ p, (s.port p).Placed (t.port p)
  store : t.store = { s.store with raw := t.store.raw, missing := t.store.missing }
  wf : s.store.wf = true → t.store.wf = true
  rest : t.engine = s.engine ∧ t.tick = s.tick ∧ t.lines = s.lines ∧ t.library = s.library ∧ t.events = s.events ∧
    t.pending = s.pending

theorem State.Works.places {L : LaneId} {s t : State} (h : s.Works L t) : s.Places L t where
  lane := h.lane.placed
  other := h.other
  port p := (h.port p).placed
  store := by rw [h.store]
  wf := h.wf
  rest := h.rest

namespace State.Places
variable {L : LaneId} {r s : State}

theorem refl (L : LaneId) (s : State) : s.Places L s := (State.Works.refl L s).places

theorem trans {t : State} (h : r.Places L s) (h' : s.Places L t) : r.Places L t where
  lane := h.lane.trans h'.lane
  other M hM := Lane.sameButPoolFlags_trans (h.other M hM) (h'.other M hM)
  port p := (h.port p).trans (h'.port p)
  store := by
    calc t.store = { s.store with raw := t.store.raw, missing := t.store.missing } := h'.store
      _ = _ := by rw [h.store]
  wf := h'.wf ∘ h.wf
  rest := by
    obtain ⟨h1, h2, h3, h4, h5, h6⟩ := h.rest
    obtain ⟨g1, g2, g3, g4, g5, g6⟩ := h'.rest
    exact ⟨g1.trans h1, g2.trans h2, g3.trans h3, g4.trans h4, g5.trans h5, g6.trans h6⟩

/-- Work on the lane after the placing. -/
theorem works {t : State} (h : r.Places L s) (h' : s.Works L t) : r.Places L t := h.trans h'.places

theorem setLane (h : r.Places L s) {l : Lane} (hl : (s.lane L).Placed l) : r.Places L (s.setLane L l) :=
  h.trans
    { lane := by rw [State.lane_setLane_same]; exact hl
      other := fun M hM => by rw [State.lane_setLane_ne _ _ _ _ hM]; rfl
      port := fun p => by rw [State.port_setLane]; exact PortRec.Worked.placed rfl
      store := rfl
      wf := id
      rest := ⟨rfl, rfl, rfl, rfl, rfl, rfl⟩ }

theorem modLane (h : r.Places L s) {f : Lane → Lane} (hf : ∀ l : Lane, l.Placed (f l)) : r.Places L (s.modLane L f) :=
  h.setLane (hf _)

theorem modPort (h : r.Places L s) (p : Port) {f : PortRec → PortRec} (hf : ∀ q : PortRec, q.Placed (f q)) :
    r.Places L (s.modPort p f) :=
  h.trans
    { lane := by rw [State.lane_modPort]; exact .refl _
      other := fun M _ => by rw [State.lane_modPort]; rfl
      port := fun q => by
        cases p <;> cases q
        · exact hf _
        · exact PortRec.Worked.placed rfl
        · exact PortRec.Worked.placed rfl
        · exact hf _
      store := by rw [State.modPort_store]
      wf := by rw [State.modPort_store]; exact id
      rest := by simp }

/-- A HOLD may join the flow list of the lane's source port. -/
theorem enterHold (h : r.Places L s) : r.Places L (s.enterFlow L true) := by
  unfold State.enterFlow
  refine h.modPort _ fun q => ?_
  split
  · refine ⟨rfl, fun e he hg => ?_⟩
    rcases List.mem_append.1 he with he | he
    · exact (List.mem_filter.1 he).1
    · rw [List.mem_singleton.1 he] at hg
      cases hg
  · exact PortRec.Worked.placed rfl

theorem openFillSlot (h : r.Places L s) : r.Places L (s.setLane L (s.lane L).openFillSlot) :=
  h.setLane (Lane.setBlock_worked _ _ _).placed

theorem turnRing (h : r.Places L s) : r.Places L (s.turnRing L) := by
  unfold State.turnRing
  dsimp only
  split
  · exact h
  · split
    · exact h.openFillSlot
    · split
      · exact h
      · exact State.Places.enterHold (h.setLane ⟨rfl, rfl, Nat.le_refl _, fun _ => rfl⟩)

theorem placeOne (h : r.Places L s) (v : Option Int) : r.Places L (s.placeOne L v) := by
  unfold State.placeOne
  extract_lets m k stored covered t
  have hstored : r.Places L stored :=
    h.trans ⟨.refl _, fun _ _ => rfl, fun p => by rw [State.port_setStore]; exact PortRec.Worked.placed rfl, rfl,
      fun hw => SampleStore.setMissing_wf _ _ _ (SampleStore.setRaw_wf _ _ _ hw), rfl, rfl, rfl, rfl, rfl, rfl⟩
  have hcovered : stored.Works L covered := by
    unfold covered
    split
    · exact ((State.Works.refl L stored).count (by decide)).coverValid m _
    · exact ((State.Works.refl L stored).count (by decide)).coverMissing m
  have ht : r.Places L t := (hstored.works hcovered).modLane fun l => ⟨rfl, rfl, Nat.le_succ _, id⟩
  split
  · exact ht.turnRing
  · exact ht

theorem placeRun (fuel : Nat) (h : r.Places L s) (e : Landed) : r.Places L (placeRun L fuel s e).1 := by
  induction fuel generalizing s e with
  | zero => exact h
  | succ fuel ih =>
    unfold Machine.placeRun
    split
    · exact h
    · dsimp only
      split
      · exact ih h _
      · split
        · exact h
        · split
          · exact ih (h.placeOne _) _
          · exact ih (h.placeOne _) _

theorem placeFrame (h : r.Places L s) (e : Landed) : r.Places L (s.placeFrame L e).1 := by
  unfold State.placeFrame
  refine placeRun _ ?_ _
  split
  · exact h.works ((State.Works.refl L s).count (by decide))
  · exact h

theorem setLanding (h : r.Places L s) (es : List Landed) : r.Places L (s.setLanding L es) :=
  h.modLane fun _ => ⟨rfl, rfl, Nat.le_refl _, id⟩

theorem placeEntries (es : List Landed) (h : r.Places L s) : r.Places L (placeEntries L es s) := by
  induction es generalizing s with
  | nil => exact h.setLanding _
  | cons e es ih =>
    unfold Machine.placeEntries
    split
    · have hf := h.placeFrame e
      split
      · rename_i heq
        rw [heq] at hf
        exact ih hf
      · rename_i heq
        rw [heq] at hf
        exact hf.setLanding _
    · exact h.setLanding _

theorem acceptFrame (h : r.Places L s) (e : Landed) : r.Places L (s.acceptFrame L e) := by
  unfold State.acceptFrame
  dsimp only
  split
  · have hf := h.placeFrame e
    split
    · rename_i heq
      rw [heq] at hf
      exact hf
    · rename_i heq
      rw [heq] at hf
      split
      · exact hf.setLanding _
      · exact (hf.setLanding _).modLane fun _ => ⟨rfl, rfl, Nat.le_refl _, id⟩
  · exact h.setLanding _

theorem cutFrame (h : r.Places L s) (e : Landed) : r.Places L (s.cutFrame L e).1 := by
  unfold State.cutFrame
  split
  · exact h.works (((State.Works.refl L s).count (by decide)).raise _ _ _ _)
  · exact h

theorem openSlot (h : r.Places L s) : r.Places L (s.openSlot L) := by
  unfold State.openSlot
  split
  · exact h.openFillSlot
  · exact h

theorem placeLanding (h : r.Places L s) : r.Places L (s.placeLanding L) :=
  State.Places.placeEntries _ h.openSlot

end State.Places

end Sys2Proof.Machine

/-! PROOF. Every step keeps the form of the Sample Store, the settings of the open lanes, and the order of their
points (R9, R12): the relation `State.Evolves`, one lemma per operation, and the statements O54, O59 and O58. -/

namespace Sys2Proof.Machine
open Sys2Proof

/-! ### The relation -/

/-- Lane record `m` comes after `l`: it is CLOSED, or it is of the same opening, its settings are those of `l` and its
points stand or have moved forward. -/
def Lane.Forward (l m : Lane) : Prop :=
  m.state = .closed ∨
  (l.state = .closed → m.state = .closed) ∧
    l.fill ≤ m.fill ∧ l.analysis ≤ m.analysis ∧ l.render ≤ m.render ∧ l.release ≤ m.release ∧
    m.source = l.source ∧ m.sink = l.sink ∧ m.rate = l.rate ∧ m.ring = l.ring ∧ m.hold = l.hold ∧
    m.reserve = l.reserve ∧ m.line = l.line ∧ m.start = l.start ∧ m.width = l.width ∧ m.rounding = l.rounding ∧
    m.log = l.log

theorem Lane.Forward.refl (l : Lane) : l.Forward l := .inr (by simp)

theorem Lane.Forward.trans {l m n : Lane} (h : l.Forward m) (h' : m.Forward n) : l.Forward n := by
  rcases h' with hn | h'
  · exact .inl hn
  · rcases h with hm | h
    · exact .inl (h'.1 hm)
    · obtain ⟨hs, h1, h2, h3, h4, e1, e2, e3, e4, e5, e6, e7, e8, e9, e10, e11⟩ := h
      obtain ⟨gs, g1, g2, g3, g4, f1, f2, f3, f4, f5, f6, f7, f8, f9, f10, f11⟩ := h'
      exact .inr ⟨gs ∘ hs, h1.trans g1, h2.trans g2, h3.trans g3, h4.trans g4, f1.trans e1, f2.trans e2, f3.trans e3,
        f4.trans e4, f5.trans e5, f6.trans e6, f7.trans e7, f8.trans e8, f9.trans e9, f10.trans e10, f11.trans e11⟩

theorem Lane.Placed.forward {l m : Lane} (h : l.Placed m) : l.Forward m := by
  obtain ⟨he, -, hf, -⟩ := h
  have hs : m.state = l.state := by rw [he]
  exact .inr ⟨hs.trans, hf, by rw [he], by rw [he], by rw [he], by rw [he], by rw [he], by rw [he], by rw [he],
    by rw [he], by rw [he], by rw [he], by rw [he], by rw [he], by rw [he], by rw [he]⟩

theorem Lane.Worked.forward {l m : Lane} (h : l.Worked m) : l.Forward m := h.placed.forward

theorem Lane.sameButPoolFlags.forward {l m : Lane} (h : l.sameButPoolFlags m) : l.Forward m := h.worked.forward

/-- `t` comes after `s`: every lane is as before or has gone forward, and the Sample Store keeps its form. -/
structure State.Evolves (s t : State) : Prop where
  lane : ∀ L, (s.lane L).Forward (t.lane L)
  wf : s.store.wf = true → t.store.wf = true

/-- The same where a CLOSED lane may have been opened. -/
structure State.Advances (s t : State) : Prop where
  lane : ∀ L, (s.lane L).state = .closed ∨ (s.lane L).Forward (t.lane L)
  wf : s.store.wf = true → t.store.wf = true

theorem State.Evolves.advances {s t : State} (h : s.Evolves t) : s.Advances t := ⟨fun L => .inr (h.lane L), h.wf⟩

theorem State.Works.evolves {L : LaneId} {s t : State} (h : s.Works L t) : s.Evolves t where
  lane M := by
    by_cases hM : M = L
    · exact hM ▸ h.lane.forward
    · exact (h.other M hM).forward
  wf := h.wf

theorem State.Places.evolves {L : LaneId} {s t : State} (h : s.Places L t) : s.Evolves t where
  lane M := by
    by_cases hM : M = L
    · exact hM ▸ h.lane.forward
    · exact (h.other M hM).forward
  wf := h.wf

theorem State.lane_congr {s t : State} (h : t.lanes = s.lanes) (L : LaneId) : t.lane L = s.lane L := by
  simp only [State.lane, h]

/-! ### Updates that reach neither lanes nor store -/

@[simp] theorem State.raiseTo_lanes (s : State) (p : Port) (c : NoticeCode) (who : Option LaneId) (pos d : Nat) :
    (s.raiseTo p c who pos d).lanes = s.lanes := by simp [State.raiseTo]
@[simp] theorem State.raiseTo_store (s : State) (p : Port) (c : NoticeCode) (who : Option LaneId) (pos d : Nat) :
    (s.raiseTo p c who pos d).store = s.store := by simp [State.raiseTo]
@[simp] theorem State.raise_lanes (s : State) (c : NoticeCode) (who : Option LaneId) (pos d : Nat) :
    (s.raise c who pos d).lanes = s.lanes := by simp [State.raise]
@[simp] theorem State.raise_store (s : State) (c : NoticeCode) (who : Option LaneId) (pos d : Nat) :
    (s.raise c who pos d).store = s.store := by simp [State.raise]
@[simp] theorem State.answer_lanes (s : State) (p : Port) (tag : Half) (lane : Byte) (st : Status) (b : List Byte) :
    (s.answer p tag lane st b).lanes = s.lanes := by simp [State.answer]
@[simp] theorem State.answer_store (s : State) (p : Port) (tag : Half) (lane : Byte) (st : Status) (b : List Byte) :
    (s.answer p tag lane st b).store = s.store := by simp [State.answer]
@[simp] theorem State.answerSyncs_lanes (s : State) (L : LaneId) : (s.answerSyncs L).lanes = s.lanes := by
  simp [State.answerSyncs]
@[simp] theorem State.answerSyncs_store (s : State) (L : LaneId) : (s.answerSyncs L).store = s.store := by
  simp [State.answerSyncs]
@[simp] theorem State.raiseLine_lanes (s : State) (k : LineId) (c : NoticeCode) :
    (s.raiseLine k c).lanes = s.lanes := by
  unfold State.raiseLine
  dsimp only
  split
  · simp
  · refine List.foldlRecOn (motive := fun t : State => t.lanes = s.lanes) _ _ rfl fun t ht L _ => ?_
    rw [State.raise_lanes, ht]
@[simp] theorem State.raiseLine_store (s : State) (k : LineId) (c : NoticeCode) :
    (s.raiseLine k c).store = s.store := by
  unfold State.raiseLine
  dsimp only
  split
  · simp
  · refine List.foldlRecOn (motive := fun t : State => t.store = s.store) _ _ rfl fun t ht L _ => ?_
    rw [State.raise_store, ht]

namespace State.Evolves
variable {r s : State}

theorem refl (s : State) : s.Evolves s := ⟨fun _ => .refl _, id⟩

theorem trans {t : State} (h : r.Evolves s) (h' : s.Evolves t) : r.Evolves t :=
  ⟨fun L => (h.lane L).trans (h'.lane L), h'.wf ∘ h.wf⟩

/-- Neither a lane nor the store is reached. -/
theorem frame {t : State} (h : r.Evolves s) (hl : t.lanes = s.lanes) (hs : t.store = s.store) : r.Evolves t :=
  h.trans ⟨fun L => by rw [State.lane_congr hl]; exact .refl _, by rw [hs]; exact id⟩

theorem works {t : State} {L : LaneId} (h : r.Evolves s) (h' : s.Works L t) : r.Evolves t := h.trans h'.evolves

theorem places {t : State} {L : LaneId} (h : r.Evolves s) (h' : s.Places L t) : r.Evolves t := h.trans h'.evolves

theorem setLane (h : r.Evolves s) {L : LaneId} {l : Lane} (hl : (s.lane L).Forward l) : r.Evolves (s.setLane L l) := by
  refine h.trans ⟨fun M => ?_, id⟩
  by_cases hM : M = L
  · subst hM
    rw [State.lane_setLane_same]
    exact hl
  · rw [State.lane_setLane_ne _ _ _ _ hM]
    exact .refl _

theorem modLane (h : r.Evolves s) {L : LaneId} {f : Lane → Lane} (hf : ∀ l : Lane, l.Forward (f l)) :
    r.Evolves (s.modLane L f) :=
  h.setLane (hf _)

theorem setStore (h : r.Evolves s) {m : SampleStore} (hm : s.store.wf = true → m.wf = true) :
    r.Evolves (s.setStore m) :=
  h.trans ⟨fun _ => .refl _, hm⟩

theorem foldl {α : Type} {f : State → α → State} (hf : ∀ (t : State) (a : α), r.Evolves t → r.Evolves (f t a)) :
    ∀ (as : List α) {t : State}, r.Evolves t → r.Evolves (as.foldl f t)
  | [], _, h => h
  | a :: as, _, h => foldl hf as (hf _ a h)

theorem when (h : r.Evolves s) (due : Bool) {f : State → State} (hf : r.Evolves (f s)) : r.Evolves (s.when due f) := by
  unfold State.when
  split
  · exact hf
  · exact h

/-! ### Ports, engine and notices -/

theorem event (h : r.Evolves s) : r.Evolves s.event := h.frame rfl rfl

theorem modPort (h : r.Evolves s) (p : Port) (f : PortRec → PortRec) : r.Evolves (s.modPort p f) :=
  h.frame (by simp) (by simp)

theorem setPort (h : r.Evolves s) (p : Port) (q : PortRec) : r.Evolves (s.setPort p q) := h.frame (by simp) (by simp)

theorem raise (h : r.Evolves s) (c : NoticeCode) (who : Option LaneId) (pos d : Nat) :
    r.Evolves (s.raise c who pos d) :=
  h.frame (by simp) (by simp)

theorem answer (h : r.Evolves s) (p : Port) (tag : Half) (lane : Byte) (st : Status) (b : List Byte) :
    r.Evolves (s.answer p tag lane st b) :=
  h.frame (by simp) (by simp)

theorem refuse (h : r.Evolves s) (p : Port) (tag : Half) (lane : Byte) (st : Status) (code : Byte) (n : Nat) :
    r.Evolves (s.refuse p tag lane st code n) :=
  h.answer _ _ _ _ _

theorem assess (h : r.Evolves s) : r.Evolves s.assess := h.works ((State.Works.refl 0 s).assess)

theorem count (h : r.Evolves s) (L : LaneId) (c : Ctr) : r.Evolves (s.count L c) :=
  h.modLane fun _ => .inr (by simp [Lane.count])

/-! ### The engine -/

theorem grant (h : r.Evolves s) : r.Evolves s.grant := by
  refine h.trans ⟨fun M => ?_, by rw [State.grant_store]; exact id⟩
  rw [State.grant_lane]
  exact Lane.Worked.forward ⟨rfl, rfl⟩

theorem answerSyncs (h : r.Evolves s) (L : LaneId) : r.Evolves (s.answerSyncs L) := h.frame (by simp) (by simp)

end State.Evolves

theorem writeRestored_wf (ys : List Int) (k : Nat) {m : SampleStore} (h : m.wf = true) :
    (writeRestored m k ys).wf = true := by
  induction ys generalizing k m with
  | nil => exact h
  | cons y ys ih => exact ih _ (SampleStore.setRestored_wf _ _ _ h)

theorem State.completedStore_wf (s : State) (r : Render) (h : s.store.wf = true) :
    (s.completedStore r).wf = true := by
  unfold State.completedStore
  split
  dsimp only
  split
  · exact writeRestored_wf _ _ h
  · exact SampleStore.setCheckpoint_wf _ _ _ (writeRestored_wf _ _ h)

theorem Lane.completed_forward (l : Lane) (r : Render) : l.Forward (l.completed r) := by
  have hblock : ∀ (m : Lane) (j : Nat) (b : Block), m.Forward (m.setBlock j b) :=
    fun m j b => (m.setBlock_worked j b).forward
  have hpoint : ∀ m : Lane, m.Forward (if r.kind = .first then { m with render := m.render + r.length } else m) := by
    intro m
    split
    · exact .inr (by simp)
    · exact .refl _
  unfold Lane.completed
  extract_lets l1 l2 next
  have h2 : l.Forward l2 := (hblock l _ _).trans (hpoint l1)
  split
  · exact h2.trans (hblock _ _ _)
  · exact h2

theorem Lane.blockEnd_worked (l : Lane) (n : Nat) : l.Worked (l.blockEnd n) := by
  unfold Lane.blockEnd
  dsimp only
  split
  · exact l.setBlock_worked _ _
  · exact .refl _

/-- The finishing of the analysis is work on the lane, and then the lane's last block is ANALYSED and the finishing
marked. -/
theorem State.finishAnalysis_works (s : State) (L : LaneId) : ∃ u, s.Works L u ∧
    s.finishAnalysis L = u.modLane L fun l => { l.blockEnd (l.fill - 1) with finished := true } := by
  unfold State.finishAnalysis
  extract_lets l closed ended t changed u
  have hclosed : s.Works L closed := by
    unfold closed
    split
    · split
      · extract_lets
        split
        · exact ((State.Works.refl L s).setList _).closeSpan _
        · exact (State.Works.refl L s).closeSpan _
      · exact .refl L s
    · exact .refl L s
  have hended : s.Works L ended := by
    unfold ended
    split
    · exact hclosed.endSpan _ _
    · exact hclosed
  have ht : s.Works L t := hended.closePiece 0
  exact ⟨u, State.Works.foldl (fun _ _ h => h.recordTouched _ _ _) changed (ht.setList _), rfl⟩

/-- The taking of a position is the latch at a block's start, work on the lane, and the step of the analysis point. -/
theorem State.analyseNext_works (s : State) (L : LaneId) :
    let n := (s.lane L).analysis
    let latched := if (n - (s.lane L).start) % Config.blockLen = 0 then s.latchBlock L ((s.lane L).ord n) else s
    ∃ u, latched.Works L u ∧ s.analyseNext L = u.modLane L fun l => { l.blockEnd n with analysis := n + 1 } :=
  ⟨_, (((State.Works.refl L _).dueAnchors _).classify _).closeAt _, rfl⟩

namespace State.Evolves
variable {r s : State}

theorem completeRender (h : r.Evolves s) (x : Render) : r.Evolves (s.completeRender x) := by
  unfold State.completeRender
  dsimp only
  split
  · exact h.frame rfl rfl
  · have hidle : r.Evolves (s.setEngine { s.engine with inFlight := none }) := h.frame rfl rfl
    exact ((hidle.setStore (s.completedStore_wf x)).modLane fun l => l.completed_forward x).answerSyncs _

/-! ### What a lane does by itself -/

theorem closeLane (h : r.Evolves s) (L : LaneId) : r.Evolves (s.closeLane L) := by
  unfold State.closeLane
  exact assess (modLane (h.frame (by simp [State.dropReservations]) (by simp [State.dropReservations]))
    fun _ => .inl rfl)

theorem completeDrain (h : r.Evolves s) (L : LaneId) : r.Evolves (s.completeDrain L) :=
  (((h.modPort _ _).modPort _ _).closeLane L).raise _ _ _ _

theorem fixFinal (h : r.Evolves s) (L : LaneId) : r.Evolves (s.modLane L Lane.fixFinal) := by
  refine h.modLane fun l => .inr ?_
  unfold Lane.fixFinal
  dsimp only
  split
  · split <;> simp [Lane.setBlock]
  · simp

theorem sendGo (h : r.Evolves s) (L : LaneId) : r.Evolves (s.sendGo L) :=
  modPort (h.modLane fun _ => .inr (by simp)) _ _

theorem discardRetiring (h : r.Evolves s) (L : LaneId) : r.Evolves (s.discardRetiring L) :=
  h.modLane fun _ => .inr (by simp)

theorem finishAnalysis (h : r.Evolves s) (L : LaneId) : r.Evolves (s.finishAnalysis L) := by
  obtain ⟨u, hu, he⟩ := s.finishAnalysis_works L
  rw [he]
  exact (h.works hu).modLane fun l => (l.blockEnd_worked (l.fill - 1)).forward.trans (.inr (by simp))

theorem analyseNext (h : r.Evolves s) (L : LaneId) : r.Evolves (s.analyseNext L) := by
  obtain ⟨u, hu, he⟩ := s.analyseNext_works L
  rw [he]
  refine trans (works ?_ hu) ⟨fun M => ?_, id⟩
  · split
    · exact h.setStore (SampleStore.setCheckpoint_wf _ _ _)
    · exact h
  · have hn : (u.lane L).analysis = (s.lane L).analysis := by
      rw [hu.lane.1]
      split <;> rfl
    by_cases hM : M = L
    · subst hM
      rw [State.lane_modLane_same]
      refine ((u.lane M).blockEnd_worked (s.lane M).analysis).forward.trans (.inr ?_)
      have hb : ((u.lane M).blockEnd (s.lane M).analysis).analysis = (s.lane M).analysis := by
        rw [((u.lane M).blockEnd_worked _).1, ← hn]
      simp [hb]
    · rw [State.lane_modLane_ne _ _ _ _ hM]
      exact .refl _

theorem settleLane (h : r.Evolves s) (L : LaneId) : r.Evolves (s.settleLane L) := by
  unfold State.settleLane
  extract_lets s1 s2 s3 s4 s5 s6 s7
  have h1 : r.Evolves s1 := h.places (State.Places.refl L s).openSlot
  have h2 : r.Evolves s2 := h1.when _ (h1.places (State.Places.refl L s1).placeLanding)
  have h3 : r.Evolves s3 := h2.when _ (h2.fixFinal L)
  have h4 : r.Evolves s4 := h3.when _ (h3.finishAnalysis L)
  have h5 : r.Evolves s5 := h4.when _ (h4.sendGo L)
  have h6 : r.Evolves s6 := h5.when _ (h5.discardRetiring L)
  have h7 : r.Evolves s7 := h6.when _ (h6.completeDrain L)
  exact h7.grant

end State.Evolves

end Sys2Proof.Machine

/-! PROOF. The rows of the table under `State.Evolves`, and the statements every step keeps (O54, O59) with the state
after reset (O58). -/

namespace Sys2Proof.Machine
open Sys2Proof

namespace State.Evolves
variable {r s : State}

/-! ### Frames, arbiter and requests -/

theorem samplesFor (h : r.Evolves s) (p : Port) (L : LaneId) (e : Landed) : r.Evolves (s.samplesFor p L e) := by
  unfold State.samplesFor
  extract_lets l t
  split
  · exact h.modPort _ _
  · split
    · exact h.count _ _
    · split
      · exact (h.count _ _).raise _ _ _ _
      · have ht : s.Places L t := by
          unfold t
          split
          · exact (State.Places.refl L s).setLane ⟨rfl, rfl, Nat.le_refl _, id⟩
          · exact .refl L s
        exact h.places ((ht.cutFrame e).acceptFrame _)

theorem frameArrives (h : r.Evolves s) (p : Port) (bytes : List Byte) : r.Evolves (s.frameArrives p bytes) := by
  unfold State.frameArrives
  dsimp only
  split
  · exact h.setPort _ _
  · split
    · exact h.setPort _ _
    · split
      · unfold State.requestArrives
        dsimp only
        split
        · exact h.setPort _ _
        · exact (h.setPort _ _).modPort _ _
      · split
        · split
          · unfold State.samplesArrive
            dsimp only
            split
            · split
              · exact h.setPort _ _
              · exact (h.samplesFor _ _ _).grant
            · exact h.setPort _ _
          · exact h.setPort _ _
        · exact h.setPort _ _

theorem takeLog (h : r.Evolves s) (p : Port) (L : LaneId) : r.Evolves (s.takeLog p L) := by
  unfold State.takeLog
  dsimp only
  split
  · exact h
  · refine settleLane (assess (modLane (h.modPort _ _) fun l => ?_)) _
    unfold Lane.logTaken
    split
    · exact .refl _
    · exact .inr (by simp)

theorem laneReleased_forward (l : Lane) (j : Nat) : l.Forward (l.released j) := by
  unfold Lane.released Lane.complete
  dsimp only
  split <;> exact .inr (by simp [Lane.count, Lane.setBlock])

theorem release (h : r.Evolves s) (p : Port) (L : LaneId) : r.Evolves (s.release p L) := by
  unfold State.release
  extract_lets l j sent lost t graded
  have ht : r.Evolves t :=
    assess (modLane (((h.modPort _ _).modPort _ _).modPort _ _) fun l => laneReleased_forward l j)
  refine settleLane ?_ L
  unfold graded
  split
  · exact ht
  · exact ht.raise _ _ _ _

/-! ### Edits -/

theorem edit (h : r.Evolves s) (p : Port) (tag : Half) (lane : Byte) (a : EditArgs) (own : State → LaneId → EditResult)
    (hown : ∀ L t start length absorbed, own s L = .done t start length absorbed → r.Evolves t) :
    r.Evolves (s.edit p tag lane a own) := by
  unfold State.edit
  split
  · exact (h.answer _ _ _ _ _).modPort _ _
  · split
    · exact (h.answer _ _ _ _ _).modPort _ _
    · rename_i heq
      exact (((hown _ _ _ _ _ heq).answer _ _ _ _ _).modPort _ _).grant

theorem disposeAt (h : r.Evolves s) (p : Port) (L : LaneId) (start : Nat) (d : Disp) {changed : State → State}
    (hc : ∀ t, r.Evolves t → r.Evolves (changed t)) {t : State} {a b c : Nat}
    (ht : s.disposeAt p L start d changed = .done t a b c) : r.Evolves t := by
  unfold State.disposeAt at ht
  split at ht
  · cases ht
  · split at ht
    · cases ht
    · cases ht
    · split at ht <;> cases ht
      · exact h
      · exact hc _ (h.works ((((State.Works.refl L s).setList _).modLane
          fun l => l.editMark_worked _ _).recordEdited _ _ _ _))

theorem addRecord (h : r.Evolves s) (p : Port) (L : LaneId) (kind : Kind) {c : Ctr} (lo hi : Nat) {t : State}
    {x y z : Nat} (ht : s.addRecord p L kind c lo hi = .done t x y z) : r.Evolves t := by
  unfold State.addRecord at ht
  dsimp only at ht
  split at ht
  · split at ht <;> cases ht
    refine modPort (count (h.works (L := L) ?_) _ _) _ _
    exact State.Works.modLane (((State.Works.refl L s).setList _).setList _).assess fun l => l.editMark_worked _ _
  · cases ht

theorem force (h : r.Evolves s) (p : Port) (a : EditArgs) (L : LaneId) {t : State} {x y z : Nat}
    (ht : State.force p a s L = .done t x y z) : r.Evolves t := by
  unfold State.force at ht
  dsimp only at ht
  split at ht
  · cases ht
  · split at ht
    · cases ht
    · split at ht
      · cases ht
      · exact h.addRecord _ _ _ _ _ ht

theorem splice (h : r.Evolves s) (p : Port) (a : EditArgs) (L : LaneId) {t : State} {x y z : Nat}
    (ht : State.splice p a s L = .done t x y z) : r.Evolves t := by
  unfold State.splice at ht
  dsimp only at ht
  split at ht
  · cases ht
  · split at ht
    · cases ht
    · split at ht
      · cases ht
      · exact h.addRecord _ _ _ _ _ ht

/-! ### Lanes, profiles and ports -/

theorem abandonLane (h : r.Evolves s) (L : LaneId) : r.Evolves (s.abandonLane L) := by
  unfold State.abandonLane
  extract_lets release t
  have ht : r.Evolves t := (h.modPort _ _).modPort _ _
  have hidle : r.Evolves (t.setEngine (t.engine.abandon L)) := ht.frame rfl rfl
  exact (hidle.closeLane L).raise _ _ _ _

theorem laneClose (h : r.Evolves s) (p : Port) (tag : Half) (lane : Byte) : r.Evolves (s.laneClose p tag lane) := by
  unfold State.laneClose
  split
  · exact h.refuse _ _ _ _ _ _
  · split
    · exact (h.abandonLane _).answer _ _ _ _ _
    · exact h.refuse _ _ _ _ _ _

theorem laneDrain (h : r.Evolves s) (p : Port) (tag : Half) (lane : Byte) : r.Evolves (s.laneDrain p tag lane) := by
  unfold State.laneDrain
  split
  · exact h.refuse _ _ _ _ _ _
  · split
    · rename_i L hs
      split
      · exact settleLane (modPort (h.setLane (.inr (by simp [hs]))) _ _) _
      · exact h.refuse _ _ _ _ _ _
    · exact h.refuse _ _ _ _ _ _

theorem laneStatus (h : r.Evolves s) (p : Port) (tag : Half) (lane : Byte) : r.Evolves (s.laneStatus p tag lane) := by
  unfold State.laneStatus
  split
  · exact h.refuse _ _ _ _ _ _
  · exact h.answer _ _ _ _ _

theorem reserve (h : r.Evolves s) (p : Port) (tag : Half) (lane : Byte) (pos : Word) :
    r.Evolves (s.reserve p tag lane pos) := by
  unfold State.reserve
  split
  · exact h.refuse _ _ _ _ _ _
  · split
    · exact h.refuse _ _ _ _ _ _
    · exact (h.modPort _ _).answer _ _ _ _ _

theorem cursorSet (h : r.Evolves s) (p : Port) (tag : Half) (lane : Byte) (pos : Word) :
    r.Evolves (s.cursorSet p tag lane pos) := by
  unfold State.cursorSet
  split
  · exact h.refuse _ _ _ _ _ _
  · exact (h.modPort _ _).answer _ _ _ _ _

theorem listRead (h : r.Evolves s) (p : Port) (tag : Half) (lane n : Byte) : r.Evolves (s.listRead p tag lane n) := by
  unfold State.listRead
  dsimp only
  split
  · exact h.refuse _ _ _ _ _ _
  · split
    · exact (h.modPort _ _).answer _ _ _ _ _
    · exact h.refuse _ _ _ _ _ _

theorem sync (h : r.Evolves s) (p : Port) (tag : Half) (lane : Byte) : r.Evolves (s.sync p tag lane) := by
  unfold State.sync
  dsimp only
  split
  · exact h.refuse _ _ _ _ _ _
  · split
    · split
      · split
        · exact h.modPort _ _
        · exact h.refuse _ _ _ _ _ _
      · exact h.answer _ _ _ _ _
    · exact h.refuse _ _ _ _ _ _

theorem transportSetup (h : r.Evolves s) (p : Port) (tag : Half) (lane : Byte) (a : TransportArgs) :
    r.Evolves (s.transportSetup p tag lane a) := by
  unfold State.transportSetup
  split
  · exact h.refuse _ _ _ _ _ _
  · split
    · split
      · exact answer (h.frame (t := s.setLine _ _) rfl rfl) _ _ _ _ _
      · exact h.refuse _ _ _ _ _ _
    · exact h.answer _ _ _ _ _

theorem profileWrite (h : r.Evolves s) (p : Port) (tag : Half) (lane slot : Byte) (x : ProfileRaw) :
    r.Evolves (s.profileWrite p tag lane slot x) := by
  unfold State.profileWrite
  split
  · exact h.refuse _ _ _ _ _ _
  · rename_i n held _
    exact answer (h.frame (t := { s with library := s.library.set n.val held }) rfl rfl) _ _ _ _ _

theorem portSetup (h : r.Evolves s) (p : Port) (tag : Half) (lane width order delivery : Byte) :
    r.Evolves (s.portSetup p tag lane width order delivery) :=
  (h.modPort p (·.setup width order delivery)).answer _ _ _ _ _

theorem noticeMask (h : r.Evolves s) (p : Port) (tag : Half) (lane : Byte) (m : Vector Byte 6) :
    r.Evolves (s.noticeMask p tag lane m) :=
  (h.modPort p (·.maskWith m)).answer _ _ _ _ _

theorem linkUp (h : r.Evolves s) (p : Port) : r.Evolves (s.linkUp p) := by
  unfold State.linkUp
  exact modPort (h.modPort _ _) _ _

theorem profileRead (h : r.Evolves s) (p : Port) (tag : Half) (lane form which : Byte) :
    r.Evolves (s.profileRead p tag lane form which) := by
  unfold State.profileRead
  split
  · split
    · exact h.refuse _ _ _ _ _ _
    · exact h.answer _ _ _ _ _
  · split
    · split
      · exact h.refuse _ _ _ _ _ _
      · exact h.answer _ _ _ _ _
    · exact h.refuse _ _ _ _ _ _

theorem refresh (h : r.Evolves s) (p : Port) (tag : Half) (lane slot : Byte) :
    r.Evolves (s.refresh p tag lane slot) := by
  unfold State.refresh
  split
  · exact h.refuse _ _ _ _ _ _
  · rename_i L n _
    have ht : r.Evolves (s.newCopy L n) := h.modLane fun _ => .inr (by simp)
    exact (ht.when _ (ht.discardRetiring L)).answer _ _ _ _ _

theorem condition (h : r.Evolves s) (p : Port) (tag : Half) (lane form which : Byte) :
    r.Evolves (s.condition p tag lane form which) := by
  unfold State.condition
  split
  · split
    · exact h.answer _ _ _ _ _
    · exact h.refuse _ _ _ _ _ _
  · split
    · split
      · exact h.answer _ _ _ _ _
      · exact h.refuse _ _ _ _ _ _
    · exact h.refuse _ _ _ _ _ _

/-- Every lane CLOSED and the store empty come after any state. -/
theorem ofReset (t : State) (hl : t.lanes = Vector.replicate 6 Lane.reset) (hs : t.store = SampleStore.empty) :
    r.Evolves t where
  lane L := .inl (by simp [State.lane, hl, Lane.reset])
  wf _ := by rw [hs]; exact SampleStore.empty_wf

/-! ### Time -/

theorem countLine (h : r.Evolves s) (k : LineId) (c : Ctr) : r.Evolves (s.countLine k c) :=
  foldl (fun _ _ ht => ht.count _ _) _ h

theorem raiseLine (h : r.Evolves s) (k : LineId) (c : NoticeCode) : r.Evolves (s.raiseLine k c) :=
  h.frame (by simp) (by simp)

theorem setLine (h : r.Evolves s) (k : LineId) (l : Line) : r.Evolves (s.setLine k l) := h.frame rfl rfl

theorem captureEdge (h : r.Evolves s) (k : LineId) (t : Tick) : r.Evolves (s.captureEdge k t) := by
  unfold State.captureEdge
  dsimp only
  split
  · exact (h.setLine _ _).raiseLine _ _
  · exact h.setLine _ _

theorem takeSample (h : r.Evolves s) (k : LineId) : r.Evolves (s.takeSample k) := by
  unfold State.takeSample
  dsimp only
  split
  · exact (h.setLine _ _).captureEdge _ _
  · exact h.setLine _ _

theorem coastExpires (h : r.Evolves s) (k : LineId) : r.Evolves (s.coastExpires k) :=
  ((h.setLine _ _).countLine _ _).raiseLine _ _

theorem lostExpires (h : r.Evolves s) (k : LineId) : r.Evolves (s.lostExpires k) :=
  ((h.setLine _ _).countLine _ _).raiseLine _ _

theorem searchExpires (h : r.Evolves s) (k : LineId) : r.Evolves (s.searchExpires k) := h.setLine _ _

theorem expire (h : r.Evolves s) (k : LineId) : r.Evolves (s.expire k) := by
  unfold State.expire
  split
  · exact h
  · exact h.coastExpires k
  · exact h.lostExpires k
  · exact h.searchExpires k

theorem passTicks (h : r.Evolves s) (d : Nat) : r.Evolves (s.passTicks d) := by
  unfold State.passTicks
  split
  · exact h
  · exact h.frame rfl rfl

theorem runTicks (fuel d : Nat) (h : r.Evolves s) : r.Evolves (runTicks fuel d s) := by
  induction fuel generalizing d s with
  | zero => exact h.passTicks d
  | succ fuel ih =>
    unfold Machine.runTicks
    split
    · exact h.passTicks d
    · split
      · exact h.passTicks d
      · refine ih _ ?_
        split
        · exact (h.passTicks _).event.takeSample _
        · exact (h.passTicks _).event.expire _

theorem runTo (h : r.Evolves s) (t : Tick) : r.Evolves (s.runTo t) := (runTicks _ _ h).event

/-! ### Outcomes -/

theorem next (h : r.Evolves s) {t : State} (ht : (.next s : Host.Outcome State Fault Refusal) = .next t) :
    r.Evolves t := by
  cases ht
  exact h

/-- The taking of an entry, whatever its effect, if the effect is one. -/
theorem take {p : Port} {e : Entry} {f : State → State} (hf : ∀ u, r.Evolves u → r.Evolves (f u)) (h : r.Evolves s)
    {t : State} (ht : s.take p e f = .next t) : r.Evolves t := by
  unfold State.take at ht
  split at ht <;> cases ht
  · exact hf _ (h.event.setPort _ _)
  · exact h

theorem takePlace {due : Bool} {f : State → State} (hf : ∀ u, r.Evolves u → r.Evolves (f u)) (h : r.Evolves s)
    {t : State} (ht : s.takePlace due f = .next t) : r.Evolves t := by
  unfold State.takePlace at ht
  split at ht <;> cases ht
  · exact hf _ h.event
  · exact h

theorem takeEdit {p : Port} {tag : Half} {lane : Byte} {a : EditArgs} {ofRow : Bool}
    {own : State → LaneId → EditResult}
    (hown : ∀ u L v x y z, r.Evolves u → own u L = .done v x y z → r.Evolves v) (h : r.Evolves s) {t : State}
    (ht : s.takeEdit p tag lane a ofRow own = .next t) : r.Evolves t := by
  unfold State.takeEdit at ht
  split at ht
  · exact h.take (fun u hu => hu.edit _ _ _ _ _ fun L v x y z hv => hown u L v x y z hu hv) ht
  · exact h.next ht

/-! ### The rows of the arbiter and of the lines -/

theorem releaseRow (h : r.Evolves s) {p : Port} {t : State} (ht : execRelease p s = .next t) : r.Evolves t := by
  unfold execRelease at ht
  split at ht
  · exact (h.event.release _ _).next ht
  · exact h.next ht

theorem logFrameTakenRow (h : r.Evolves s) {p : Port} {t : State} (ht : execLogFrameTaken p s = .next t) : r.Evolves t := by
  unfold execLogFrameTaken at ht
  split at ht
  · exact (h.event.takeLog _ _).next ht
  · exact h.next ht

theorem responseTakenRow (h : r.Evolves s) {p : Port} {t : State} (ht : execResponseTaken p s = .next t) : r.Evolves t := by
  unfold execResponseTaken at ht
  split at ht
  · exact (h.event.modPort _ _).next ht
  · exact h.next ht

theorem noticeTakenRow (h : r.Evolves s) {p : Port} {t : State} (ht : execNoticeTaken p s = .next t) : r.Evolves t := by
  unfold execNoticeTaken at ht
  split at ht
  · exact (h.event.modPort _ _).next ht
  · exact h.next ht

theorem flowFrameTakenRow (h : r.Evolves s) {p : Port} {t : State} (ht : execFlowFrameTaken p s = .next t) : r.Evolves t := by
  unfold execFlowFrameTaken at ht
  split at ht
  · exact (h.event.modPort _ _).next ht
  · exact h.next ht

theorem analysePositionRow (h : r.Evolves s) {L : LaneId} {t : State} (ht : execAnalysePosition L s = .next t) :
    r.Evolves t := by
  unfold execAnalysePosition at ht
  refine h.takePlace (fun u hu => ?_) ht
  have hn := hu.analyseNext L
  exact (hn.when (f := fun v => v.finishAnalysis L) _ (hn.finishAnalysis L)).grant

theorem perforationEdgeRow (h : r.Evolves s) {k : LineId} {t : Tick} {u : State}
    (hu : execPerforationEdge k t s = .next u) : r.Evolves u :=
  ((h.runTo t).captureEdge k t).next hu

theorem coastTimeoutRow (h : r.Evolves s) {k : LineId} {t : Tick} {u : State} (hu : execCoastTimeout k t s = .next u) :
    r.Evolves u := by
  unfold execCoastTimeout at hu
  dsimp only at hu
  split at hu
  · exact ((h.runTo t).coastExpires k).next hu
  · exact (h.runTo t).next hu

theorem lostTimeoutRow (h : r.Evolves s) {k : LineId} {t : Tick} {u : State} (hu : execLostTimeout k t s = .next u) :
    r.Evolves u := by
  unfold execLostTimeout at hu
  dsimp only at hu
  split at hu
  · exact ((h.runTo t).lostExpires k).next hu
  · exact (h.runTo t).next hu

theorem searchTimeoutRow (h : r.Evolves s) {k : LineId} {t : Tick} {u : State} (hu : execSearchTimeout k t s = .next u) :
    r.Evolves u := by
  unfold execSearchTimeout at hu
  dsimp only at hu
  split at hu
  · exact ((h.runTo t).searchExpires k).next hu
  · exact (h.runTo t).next hu

theorem filterSampleRow (h : r.Evolves s) {k : LineId} {t : Tick} {level : Level} {u : State}
    (hu : execFilterSample k t level s = .next u) : r.Evolves u := by
  unfold execFilterSample at hu
  dsimp only at hu
  split at hu
  · exact (((h.runTo t).setLine _ _).takeSample k).next hu
  · exact ((h.runTo t).setLine _ _).next hu

end State.Evolves

/-- LANE OPEN opens a CLOSED lane, and reaches no other but in its pool flags. -/
theorem State.laneOpen_advances (s : State) (p : Port) (tag : Half) (lane : Byte) (a : LaneOpenArgs) :
    s.Advances (s.laneOpen p tag lane a) := by
  unfold State.laneOpen
  split
  · exact ((State.Evolves.refl s).refuse _ _ _ _ _ _).advances
  · rename_i L o hcheck
    have hclosed : (s.lane L).state = .closed := by
      unfold State.checkOpen at hcheck
      split at hcheck
      · cases hcheck
      · split at hcheck
        · cases hcheck
        · rename_i hopen
          split at hcheck
          · cases hcheck
          · split at hcheck <;> cases hcheck
            exact (Lane.isOpen_false_iff _).1 (by simpa using hopen)
    unfold State.openLane
    extract_lets d ring t
    have ht : t.Evolves ((t.assess.raise .laneOpened (some L) a.start.toNat 0).answer p tag lane
        (if d = a.hold.toNat then .done else .clamped) [0x01#8, natByte d]) :=
      ((State.Evolves.refl t).assess.raise _ _ _ _).answer _ _ _ _ _
    refine ⟨fun M => ?_, fun hw => ht.wf (SampleStore.setCheckpoint_wf _ _ _ hw)⟩
    by_cases hM : M = L
    · exact .inl (hM ▸ hclosed)
    · have hlane : t.lane M = s.lane M := by
        unfold t
        rw [State.lane_setStore, State.lane_setLane_ne _ _ _ _ hM]
      exact .inr (hlane ▸ ht.lane M)

/-- Every command's meaning, row by row. -/
theorem exec_advances (c : Instr) (s t : State) (h : exec c s = .next t) : s.Advances t := by
  have hs := State.Evolves.refl s
  cases c with
  | requestFrame p bytes => exact (hs.takePlace (fun u hu => hu.frameArrives _ _) h).advances
  | samplesFrame p bytes => exact (hs.takePlace (fun u hu => hu.frameArrives _ _) h).advances
  | laneOpen p tag lane a =>
    simp only [exec, execLaneOpen, State.take] at h
    split at h <;> cases h
    · rename_i q _
      have hopen := (s.event.setPort p q).laneOpen_advances p tag lane a
      refine ⟨fun L => ?_, ?_⟩
      · simpa using hopen.lane L
      · simpa using hopen.wf
    · exact hs.advances
  | laneClose p tag lane => exact (hs.take (fun u hu => hu.laneClose _ _ _) h).advances
  | laneDrain p tag lane => exact (hs.take (fun u hu => hu.laneDrain _ _ _) h).advances
  | laneStatus p tag lane => exact (hs.take (fun u hu => hu.laneStatus _ _ _) h).advances
  | editVeto p tag lane a =>
    exact (hs.takeEdit (fun u L v x y z hu hv => hu.disposeAt _ _ _ _ (fun _ ht => ht.count _ _) hv) h).advances
  | editRestore p tag lane a =>
    exact (hs.takeEdit (fun u L v x y z hu hv => hu.disposeAt _ _ _ _ (fun _ ht => ht) hv) h).advances
  | editForce p tag lane a => exact (hs.takeEdit (fun u L v x y z hu hv => hu.force _ _ _ hv) h).advances
  | editSplice p tag lane a => exact (hs.takeEdit (fun u L v x y z hu hv => hu.splice _ _ _ hv) h).advances
  | reserve p tag lane pos => exact (hs.take (fun u hu => hu.reserve _ _ _ _) h).advances
  | cursorSet p tag lane pos => exact (hs.take (fun u hu => hu.cursorSet _ _ _ _) h).advances
  | listRead p tag lane n => exact (hs.take (fun u hu => hu.listRead _ _ _ _) h).advances
  | sync p tag lane => exact (hs.take (fun u hu => hu.sync _ _ _) h).advances
  | transportSetup p tag lane a => exact (hs.take (fun u hu => hu.transportSetup _ _ _ _) h).advances
  | profileWrite p tag lane slot r => exact (hs.take (fun u hu => hu.profileWrite _ _ _ _ _) h).advances
  | profileRead p tag lane form which => exact (hs.take (fun u hu => hu.profileRead _ _ _ _ _) h).advances
  | refresh p tag lane slot => exact (hs.take (fun u hu => hu.refresh _ _ _ _) h).advances
  | portSetup p tag lane width order delivery =>
    exact (hs.take (fun u hu => hu.portSetup _ _ _ _ _ _) h).advances
  | unitReset p tag lane => exact (hs.take (fun u _ => .ofReset _ rfl rfl) h).advances
  | noticeMask p tag lane masks => exact (hs.take (fun u hu => hu.noticeMask _ _ _ _) h).advances
  | condition p tag lane form which => exact (hs.take (fun u hu => hu.condition _ _ _ _ _) h).advances
  | identify p tag lane => exact (hs.take (fun u hu => hu.answer _ _ _ _ _) h).advances
  | malformedEntry p tag lane => exact (hs.take (fun u hu => hu.answer _ _ _ _ _) h).advances
  | unknownEntry p tag lane => exact (hs.take (fun u hu => hu.answer _ _ _ _ _) h).advances
  | linkDown p => exact (hs.takePlace (fun u hu => hu.modPort _ _) h).advances
  | linkUp p => exact (hs.takePlace (fun u hu => hu.linkUp _) h).advances
  | resetPin => exact ((State.Evolves.ofReset _ rfl rfl).next h).advances
  | release p => exact (hs.releaseRow h).advances
  | logFrameTaken p => exact (hs.logFrameTakenRow h).advances
  | responseTaken p => exact (hs.responseTakenRow h).advances
  | noticeTaken p => exact (hs.noticeTakenRow h).advances
  | flowFrameTaken p => exact (hs.flowFrameTakenRow h).advances
  | renderStart => exact (hs.takePlace (fun u hu => hu.grant) h).advances
  | renderCompletion =>
    simp only [exec, execRenderCompletion] at h
    split at h
    · exact ((hs.event.completeRender _).grant.next h).advances
    · exact (hs.next h).advances
  | syncAnswer L => exact (hs.takePlace (fun u hu => hu.answerSyncs _) h).advances
  | analysePosition L => exact (hs.analysePositionRow h).advances
  | perforationEdge k t => exact (hs.perforationEdgeRow h).advances
  | coastTimeout k t => exact (hs.coastTimeoutRow h).advances
  | lostTimeout k t => exact (hs.lostTimeoutRow h).advances
  | searchTimeout k t => exact (hs.searchTimeoutRow h).advances
  | go L => exact (hs.takePlace (fun u hu => hu.sendGo _) h).advances
  | landingPlacement L =>
    exact (hs.takePlace (fun u hu => (hu.places (State.Places.refl L u).placeLanding).settleLane _) h).advances
  | finalBlock L => exact (hs.takePlace (fun u hu => (hu.fixFinal L).settleLane L) h).advances
  | drainAnalysisFinish L => exact (hs.takePlace (fun u hu => (hu.finishAnalysis _).grant) h).advances
  | drainCompletion L => exact (hs.takePlace (fun u hu => hu.completeDrain _) h).advances
  | retiringDiscard L => exact (hs.takePlace (fun u hu => hu.discardRetiring _) h).advances
  | filterSample k t level => exact (hs.filterSampleRow h).advances

/-- In every step the lanes stand or go forward, but that a CLOSED one may be opened, and the store keeps its form. -/
theorem step_advances (s t : State) (h : step s = .next t) : s.Advances t := by
  unfold step at h
  split at h
  · rename_i c rest _
    have hc := exec_advances c _ t h
    exact ⟨hc.lane, hc.wf⟩
  · exact ((State.Evolves.runTicks _ _ (State.Evolves.refl s)).next h).advances

/-- Settles O54: `State.Advances`, which every step meets, row by row. -/
theorem stepKeepsTheStoreForm : Obligations.StepKeepsTheStoreForm :=
  fun s t h => (step_advances s t h).wf

/-- Settles O59: of the cases of `State.Advances` for a lane open before and after, only the one in which its points
stand or move forward under the same settings is left. -/
theorem openLanesKeepTheirSettingsAndGoForward : Obligations.OpenLanesKeepTheirSettingsAndGoForward := by
  intro s t h L hs ht
  rcases (step_advances s t h).lane L with hc | hc | hc
  · exact absurd hc hs
  · exact absurd hc ht
  · exact hc.2

/-! ### The state after reset -/

theorem Profile.default_inRange : Profile.default.inRange := by
  refine ⟨by decide, by decide, by decide, by decide, by decide, by decide, by decide, by decide, by decide, by decide,
    by decide, by decide, by decide, by decide, by decide, ?_, ?_, ?_, by decide, by decide, by decide⟩
  all_goals simp [Profile.default]

theorem PortRec.reset_bounded : PortRec.reset.bounded := by
  refine ⟨by decide, by decide, by decide, by decide, by decide, by decide, by decide, by decide, by decide, by decide,
    fun i e h => ?_, fun _ => ⟨rfl, rfl, rfl, rfl, rfl, rfl, rfl, rfl, rfl, rfl, fun c => ?_⟩⟩
  · simp [PortRec.reset] at h
  · simp [PortRec.reset]

theorem Line.reset_inRange (input : Level) : (Line.reset input).inRange := by simp [Line.inRange, Line.reset]

/-- Settles O58: every lane is CLOSED without working copies, and store, library, ports and lines hold their reset
values. -/
theorem resetMeetsTheInvariants : Obligations.ResetMeetsTheInvariants := by
  refine ⟨SampleStore.empty_wf, ⟨fun i => ?_, fun L => ⟨fun w h => ?_, fun w h => ?_⟩⟩, fun p => ?_, fun k => ?_⟩
  · simpa [State.reset] using Profile.default_inRange
  · simp [State.lane, State.reset, Lane.reset] at h
  · simp [State.lane, State.reset, Lane.reset] at h
  · cases p <;> exact PortRec.reset_bounded
  · simpa [State.line, State.reset] using Line.reset_inRange .low

end Sys2Proof.Machine

/-! PROOF. Notices raised, frames heard, and the statements read off a definition: dropped frames (O7), startable
blocks (O42), LANE STATUS (O20) and the taking of a position (O49). -/

namespace Sys2Proof.Machine
open Sys2Proof

/-! ### Notices raised (R175) -/

theorem State.foldedEntry_eq (s : State) (q : Port) (c : NoticeCode) (who : Option LaneId) (pos d : Nat) :
    s.foldedEntry q c who pos d =
      some (foldNotice c pos d s.events (s.port q).entries[(entryIndex c.category who).val]) := by
  unfold State.foldedEntry foldNotice
  cases (s.port q).entries[(entryIndex c.category who).val] <;> rfl

theorem State.port_raise (s : State) (c : NoticeCode) (who : Option LaneId) (pos d : Nat) (q : Port) :
    (s.raise c who pos d).port q = (s.port q).enter c who pos d s.events := by
  cases q <;> rfl

@[simp] theorem State.lane_raise (s : State) (c : NoticeCode) (who : Option LaneId) (pos d : Nat) (L : LaneId) :
    (s.raise c who pos d).lane L = s.lane L := State.lane_congr (by simp) L

/-- An occurrence raised sets its own entry of each port. -/
theorem State.raise_entries (s : State) (c : NoticeCode) (who : Option LaneId) (pos d : Nat) (q : Port) :
    ((s.raise c who pos d).port q).entries =
      (s.port q).entries.set (entryIndex c.category who).val (s.foldedEntry q c who pos d) := by
  rw [State.port_raise, State.foldedEntry_eq]
  rfl

/-- The entry of the occurrence raised. -/
theorem State.raise_entry (s : State) (c : NoticeCode) (who : Option LaneId) (pos d : Nat) (q : Port) :
    ((s.raise c who pos d).port q).entries[(entryIndex c.category who).val] = s.foldedEntry q c who pos d := by
  simp [State.raise_entries]

/-- Every other entry stands. -/
theorem State.raise_entry_ne (s : State) (c : NoticeCode) (who : Option LaneId) (pos d : Nat) (q : Port) (i : Fin 42)
    (h : i ≠ entryIndex c.category who) :
    ((s.raise c who pos d).port q).entries[i.val] = (s.port q).entries[i.val] := by
  have hv : (entryIndex c.category who).val ≠ i.val := fun e => h (Fin.ext e.symm)
  simp [State.raise_entries, hv]

theorem State.raise_sameButNotices (s : State) (c : NoticeCode) (who : Option LaneId) (pos d : Nat) :
    s.sameButNotices (s.raise c who pos d) := rfl

/-! ### SAMPLES frames heard (R155, R156) -/

/-- The position a SAMPLES payload begins with stands at byte 8 of its frame. -/
theorem fieldAt_framePayload {bytes : List Byte} (h : 5 ≤ (framePayload bytes).length) :
    fieldAt (framePayload bytes) 0 4 = fieldAt bytes 8 4 := by
  have hl : 5 ≤ bytes.length - 12 := by
    simp only [framePayload, List.length_take] at h
    omega
  unfold fieldAt framePayload
  rw [List.drop_zero, List.take_take, Nat.min_eq_left (by omega)]

/-- A SAMPLES frame that passes every check has the fate of R13 as its whole effect, before the grant. -/
theorem exec_samplesFrame {s : State} {p : Port} {bytes : List Byte} {L : LaneId} (h : s.hearsSamples p bytes L) :
    exec (.samplesFrame p bytes) s = .next
      (s.event.samplesFor p L (samplesEntry (s.port p) (byteAt bytes 2) (framePayload bytes))).grant := by
  obtain ⟨hup, hlen, hcrc, hkind, hfield, hsamples, hlane⟩ := h
  have hlength : frameLengthOk bytes = true := by simp [frameLengthOk, hfield]
  have hbase : exec (.samplesFrame p bytes) s = .next (s.event.frameArrives p bytes) :=
    State.takePlace_due (by simp [hup]) (·.frameArrives p bytes)
  have hreq : kindSamples ≠ kindRequest := by decide
  rw [hbase, State.frameArrives]
  simp only [State.port_event, hcrc, hkind, hlength, hreq, State.samplesArrive, hsamples, laneOf_of_toNat hlane,
    if_true, if_false, if_neg (show ¬ bytes.length < 12 by omega), Bool.true_eq_false]

theorem samplesEntry_start {s : State} {p : Port} {bytes : List Byte} {L : LaneId} (h : s.hearsSamples p bytes L) :
    (samplesEntry (s.port p) (byteAt bytes 2) (framePayload bytes)).start = fieldAt bytes 8 4 := by
  obtain ⟨-, -, -, -, -, hsamples, -⟩ := h
  simp only [samplesLengthOk, Bool.and_eq_true, decide_eq_true_eq] at hsamples
  exact fieldAt_framePayload hsamples.1

/-- Settles O7: the rows of R13 in their order, each one update of the state. -/
theorem samplesFrameDropped : Obligations.SamplesFrameDropped := by
  intro s p bytes L hears t l counted
  rw [exec_samplesFrame hears]
  refine ⟨fun hstray => ?_, fun hsrc hdrain => ?_, fun hsrc hact hheld hcount => ?_⟩
  · have hstray' : (s.event.lane L).state = .closed ∨ (s.event.lane L).source ≠ p := hstray
    rw [State.samplesFor, if_pos hstray']
    cases p <;> rfl
  · have hs : ¬((s.event.lane L).state = .closed ∨ (s.event.lane L).source ≠ p) := by
      simp [show (s.lane L).state = .draining from hdrain, show (s.lane L).source = p from hsrc]
    rw [State.samplesFor, if_neg hs, if_pos (show (s.event.lane L).state = .draining from hdrain)]
    rfl
  · have hs : ¬((s.event.lane L).state = .closed ∨ (s.event.lane L).source ≠ p) := by
      simp [show (s.lane L).state = .active from hact, show (s.lane L).source = p from hsrc]
    have hd : ¬(s.event.lane L).state = .draining := by
      simp [show (s.lane L).state = .active from hact]
    rw [State.samplesFor, if_neg hs, if_neg hd, if_pos ⟨hheld, hcount⟩]
    refine ⟨_, rfl, State.raise_sameButNotices _ _ _ _ _, fun q => ?_⟩
    rw [State.raise_entries, samplesEntry_start hears]
    cases q <;> rfl

/-! ### Startable blocks (R21, R90) -/

theorem Lane.unlistedStarts_all (l : Lane) (n : Nat) : (l.unlistedStarts.all fun st => decide (n < st)) = true ↔
    (∀ sp, l.span = some sp → sp.form = .unlisted → n < sp.start) ∧
    ∀ start length, l.piece = some (.unlisted start length) → n < start := by
  unfold Lane.unlistedStarts
  rw [List.all_append, Bool.and_eq_true]
  refine and_congr ?_ ?_
  · cases l.span with
    | none => simp
    | some sp => by_cases hf : sp.form = .unlisted <;> simp [hf]
  · cases l.piece with
    | none => simp
    | some p => cases p <;> simp

theorem Lane.renderable_iff (l : Lane) (j : Nat) : l.renderable j = true ↔
    ((l.block j).state = .analysed ∨ (l.block j).state = .dirty) ∧ l.firstOf j ≤ l.render ∧
    (l.lastOf j + 9 ≤ l.analysis ∨ l.state = .draining ∧ l.lastOf j < l.analysis) ∧
    (∀ r ∈ l.list, r.state = .opened → l.lastOf j < r.start) ∧
    (∀ sp, l.span = some sp → sp.form = .unlisted → l.lastOf j < sp.start) ∧
    ∀ start length, l.piece = some (.unlisted start length) → l.lastOf j < start := by
  have hlist : (l.list.all fun r => !(r.state == .opened && decide (r.start ≤ l.lastOf j))) = true ↔
      ∀ r ∈ l.list, r.state = .opened → l.lastOf j < r.start := by
    simp only [List.all_eq_true, Bool.not_eq_true', Bool.and_eq_false_imp, beq_iff_eq, decide_eq_false_iff_not,
      Nat.not_le]
  rw [Lane.renderable, Bool.and_eq_true, Bool.and_eq_true, Bool.and_eq_true, Bool.and_eq_true, hlist,
    Lane.unlistedStarts_all]
  simp only [Lane.pastMargin, Bool.or_eq_true, beq_iff_eq, decide_eq_true_eq, Bool.and_eq_true, and_assoc]

theorem Lane.awaitsAnchor_false_iff (l : Lane) (j : Nat) : l.awaitsAnchor j = false ↔
    ∀ r ∈ l.list, r.disp = .applied → r.start ≤ l.lastOf j → l.firstOf j ≤ r.last →
      r.before ≠ none ∧ r.after ≠ none := by
  rw [Lane.awaitsAnchor, List.any_eq_false]
  refine forall₂_congr fun r _ => ?_
  simp only [Record.meets, Bool.and_eq_true, Bool.or_eq_true, beq_iff_eq, decide_eq_true_eq, Option.isNone_iff_eq_none]
  tauto

/-- Settles O42: renderable, every anchor held, and the margin or the finished drain. -/
theorem startableBlocks : Obligations.StartableBlocks := by
  intro l j
  rw [Lane.startable, Bool.and_eq_true, Bool.and_eq_true, Bool.and_eq_true, Lane.isOpen_iff, Bool.not_eq_true',
    Lane.renderable_iff, Lane.awaitsAnchor_false_iff]
  simp only [Lane.pastMargin, Bool.or_eq_true, decide_eq_true_eq, Bool.and_eq_true, Option.isSome_iff_ne_none]
  tauto

/-! ### LANE STATUS (R4) -/

theorem LaneState.byte_of_open {st : LaneState} (h : st ≠ .closed) :
    st.byte = if st = .active then 1#8 else 2#8 := by
  cases st
  · exact absurd rfl h
  · rfl
  · rfl

theorem Option.map_getD_eq_elim {α β : Type} (f : α → β) (d : β) (o : Option α) : (o.map f).getD d = o.elim d f := by
  cases o <;> rfl

/-- Settles O20: the record of an open lane read off field by field, the zeros of a CLOSED one. -/
theorem laneStatusReportsTheLane : Obligations.LaneStatusReportsTheLane := by
  intro s p tag lane rest hoff answer
  have hexec : exec (.laneStatus p tag lane) s = .next ((s.took p rest).laneStatus p tag lane) :=
    State.take_offers hoff (·.laneStatus p tag lane)
  refine ⟨fun h => ?_, fun L hL => ⟨fun hc => ?_, fun ho => ?_⟩⟩
  · simp only [answer, hexec, State.laneStatus, laneOf_none h]
    rfl
  · have hclosed : (s.lane L).isOpen = false := (Lane.isOpen_false_iff _).2 hc
    simp only [answer, hexec, State.laneStatus, laneOf_of_toNat hL, State.statusRecord, State.took_lane, hclosed]
    rfl
  · have hopen : (s.lane L).isOpen = true := (Lane.isOpen_iff _).2 ho
    simp only [answer, hexec, State.laneStatus, laneOf_of_toNat hL, State.statusRecord, State.took_lane, hopen, if_true,
      State.openStatus, LaneState.byte_of_open ho, Option.map_getD_eq_elim, State.lastLatch, State.took_store]
    rfl

/-! ### The taking of a position (R20, R26, R123, R124) -/

theorem incrementOf_eq (w : Profile) (rate : Rate) (line : LineState) (ps : Nat) : incrementOf w rate line ps =
    match w.mode with
    | .fixed => (2 * (4294967296 * w.f) + 100 * rate.hertz) / (2 * (100 * rate.hertz))
    | .tracked => if line = .tracking ∨ line = .coast then
        (2 * (4294967296 * rate.ticks) + ps * w.d) / (2 * (ps * w.d)) else 0 := by
  unfold incrementOf humBypassed roundHalfUp
  cases w.mode <;> cases line <;> simp

/-- The latch a lane with ACTIVE copy `w` takes. -/
theorem State.latchFor_eq {s : State} {L : LaneId} {w : WorkingCopy} (hw : (s.lane L).active = some w) :
    s.latchFor L =
      let state := match (s.lane L).line with
        | some k => (s.line k).state
        | none => .disabled
      let ps := match (s.lane L).line with
        | some k => (s.line k).ps
        | none => 0
      ⟨state, incrementOf w.profile (s.lane L).rate state ps, w.generation⟩ := by
  unfold State.latchFor Lane.activeProfile
  simp only [hw]
  cases (s.lane L).line <;> rfl

/-- A block's latch enters its own checkpoint and no other. -/
theorem State.latchBlock_checkpoint {s : State} (hw : s.store.wf = true) (L : LaneId) (j n : Nat) :
    (s.latchBlock L j).store.checkpoint n =
      if n = (s.lane L).slotOf j then { s.store.checkpoint n with latch := s.latchFor L } else s.store.checkpoint n := by
  rw [State.latchBlock, State.setStore_store, SampleStore.checkpoint_setCheckpoint _ _ _ _ hw]
  by_cases hn : n = (s.lane L).slotOf j
  · rw [if_pos hn, if_pos hn, hn]
  · rw [if_neg hn, if_neg hn]

theorem State.Works.checkpoint {L : LaneId} {s t : State} (h : s.Works L t) (n : Nat) :
    t.store.checkpoint n = s.store.checkpoint n := by
  rw [SampleStore.checkpoint, h.store]
  rfl

/-- The points of a lane other than its analysis point, and its fill point, under work on the lane. -/
theorem Lane.Worked.points {l m : Lane} (h : l.Worked m) :
    m.fill = l.fill ∧ m.analysis = l.analysis ∧ m.render = l.render ∧ m.release = l.release := by
  rw [h.1]
  exact ⟨rfl, rfl, rfl, rfl⟩

/-- The points and the checkpoints after the taking of a position. -/
theorem State.analyseNext_points (s : State) (L : LaneId) :
    let t := s.analyseNext L
    (t.lane L).analysis = (s.lane L).analysis + 1 ∧ (t.lane L).fill = (s.lane L).fill ∧
    (t.lane L).render = (s.lane L).render ∧ (t.lane L).release = (s.lane L).release ∧
    ∀ n, t.store.checkpoint n =
      (if ((s.lane L).analysis - (s.lane L).start) % Config.blockLen = 0 then
        s.latchBlock L ((s.lane L).ord (s.lane L).analysis) else s).store.checkpoint n := by
  obtain ⟨u, hu, he⟩ := s.analyseNext_works L
  dsimp only at hu ⊢
  rw [he, State.lane_modLane_same]
  have hlatch : ∀ L', (if ((s.lane L).analysis - (s.lane L).start) % Config.blockLen = 0 then
      s.latchBlock L ((s.lane L).ord (s.lane L).analysis) else s).lane L' = s.lane L' := by
    intro L'
    split <;> rfl
  have hl := hu.lane
  rw [hlatch] at hl
  obtain ⟨hf, -, hr, hrel⟩ := (hl.trans ((u.lane L).blockEnd_worked (s.lane L).analysis)).points
  exact ⟨rfl, hf, hr, hrel, fun n => hu.checkpoint n⟩

theorem State.finishAnalysis_points (s : State) (L : LaneId) :
    let t := s.finishAnalysis L
    (t.lane L).analysis = (s.lane L).analysis ∧ (t.lane L).fill = (s.lane L).fill ∧
    (t.lane L).render = (s.lane L).render ∧ (t.lane L).release = (s.lane L).release ∧
    ∀ n, t.store.checkpoint n = s.store.checkpoint n := by
  obtain ⟨u, hu, he⟩ := s.finishAnalysis_works L
  dsimp only
  rw [he, State.lane_modLane_same]
  obtain ⟨hf, ha, hr, hrel⟩ := (hu.lane.trans ((u.lane L).blockEnd_worked ((u.lane L).fill - 1))).points
  exact ⟨ha, hf, hr, hrel, fun n => hu.checkpoint n⟩

theorem exec_analysePosition {s : State} {L : LaneId} (h : (s.lane L).canAnalyse = true) :
    exec (.analysePosition L) s = .next ((s.event.analyseNext L).when
      ((s.event.analyseNext L).lane L).finishDue (·.finishAnalysis L)).grant := by
  show execAnalysePosition L s = _
  rw [execAnalysePosition, State.takePlace_due h]

/-- Settles O49: the latch at a block's first position, work that moves no point and no checkpoint, and the step of
the analysis point; the finishing of a drain and the grant move neither. -/
theorem analysisTakesOnePositionAndLatches : Obligations.AnalysisTakesOnePositionAndLatches := by
  intro s L w hwf l hopen hlt hactive state ps increment
  have hcan : (s.lane L).canAnalyse = true := by
    simp only [Lane.canAnalyse, Bool.and_eq_true, decide_eq_true_eq]
    exact ⟨(Lane.isOpen_iff _).2 hopen, hlt⟩
  have hlatch : s.event.latchFor L = ⟨state, increment, w.generation⟩ := by
    rw [State.latchFor_eq (show (s.event.lane L).active = some w from hactive)]
    simp only [incrementOf_eq]
    rfl
  obtain ⟨ha, hf, hr, hrel, hcp⟩ := s.event.analyseNext_points L
  refine ⟨_, exec_analysePosition hcan, ?_⟩
  generalize s.event.analyseNext L = u at *
  have hu : ∀ due, ((u.when due (·.finishAnalysis L)).lane L).analysis = l.analysis + 1 ∧
      ((u.when due (·.finishAnalysis L)).lane L).fill = l.fill ∧
      ((u.when due (·.finishAnalysis L)).lane L).render = l.render ∧
      ((u.when due (·.finishAnalysis L)).lane L).release = l.release ∧
      ∀ n, (u.when due (·.finishAnalysis L)).store.checkpoint n = u.store.checkpoint n := by
    intro due
    cases due
    · exact ⟨ha, hf, hr, hrel, fun _ => rfl⟩
    · obtain ⟨ga, gf, gr, grel, gcp⟩ := u.finishAnalysis_points L
      exact ⟨ga.trans ha, gf.trans hf, gr.trans hr, grel.trans hrel, gcp⟩
  obtain ⟨ga, gf, gr, grel, gcp⟩ := hu (u.lane L).finishDue
  rw [State.grant_lane]
  refine ⟨ga, gf, gr, grel, fun n => ?_⟩
  rw [State.grant_store, gcp, hcp]
  by_cases hb : (l.analysis - l.start) % 256 = 0
  · rw [if_pos (show ((s.event.lane L).analysis - (s.event.lane L).start) % Config.blockLen = 0 from hb),
      State.latchBlock_checkpoint (s := s.event) hwf, hlatch]
    by_cases hn : n = l.slotOf ((l.analysis - l.start) / 256)
    · rw [if_pos (show n = (s.event.lane L).slotOf ((s.event.lane L).ord (s.event.lane L).analysis) from hn),
        if_pos ⟨hb, hn⟩]
      rfl
    · rw [if_neg (show n ≠ (s.event.lane L).slotOf ((s.event.lane L).ord (s.event.lane L).analysis) from hn),
        if_neg fun h => hn h.2]
      rfl
  · rw [if_neg (show ¬((s.event.lane L).analysis - (s.event.lane L).start) % Config.blockLen = 0 from hb),
      if_neg fun h => hb h.1]
    rfl

end Sys2Proof.Machine

/-! PROOF. The pool's assessment (R58), the settings of a LANE OPEN (R2), and the lane that is opened: O16 and O17. -/

namespace Sys2Proof.Machine
open Sys2Proof

/-! ### The assessment of the pool (R55, R58) -/

/-- The available count of a lane does not look at pool flags. -/
theorem State.available_congr {s t : State} (h : ∀ M, (s.lane M).sameButPoolFlags (t.lane M)) (L : LaneId) :
    t.available L = s.available L := by
  have hfield : ∀ M, (t.lane M).isOpen = (s.lane M).isOpen ∧ (t.lane M).reserve = (s.lane M).reserve ∧
      (t.lane M).list = (s.lane M).list := by
    intro M
    rw [h M]
    exact ⟨rfl, rfl, rfl⟩
  have hsum : ∀ f : Lane → Nat, (∀ M, f (t.lane M) = f (s.lane M)) → t.sumLanes f = s.sumLanes f := by
    intro f hf
    simp only [State.sumLanes, hf]
  have hreserved : t.sumLanes Lane.reserved = s.sumLanes Lane.reserved := by
    refine hsum _ fun M => ?_
    obtain ⟨ho, hr, -⟩ := hfield M
    simp only [Lane.reserved, ho, hr]
  have hcommon : t.sumLanes Lane.commonHeld = s.sumLanes Lane.commonHeld := by
    refine hsum _ fun M => ?_
    obtain ⟨ho, hr, hl⟩ := hfield M
    simp only [Lane.commonHeld, ho, hr, hl]
  obtain ⟨-, hr, hl⟩ := hfield L
  simp only [State.available, State.freeCommon, State.commonShare, hreserved, hcommon, hr, hl]

/-- A lane record assessed against available count `n`. -/
def Lane.assessed (l : Lane) (n : Nat) : Lane :=
  if l.isOpen then { l with low := decide (n < Config.lowMark), armed := l.armed || decide (Config.lowMark < n) } else l

theorem Lane.assessed_sameButPoolFlags (l : Lane) (n : Nat) : l.sameButPoolFlags (l.assessed n) := by
  unfold Lane.assessed
  split <;> rfl

theorem State.assessLane_lane (s : State) (L M : LaneId) :
    (s.assessLane L).lane M = if M = L then (s.lane L).assessed (s.available L) else s.lane M := by
  unfold State.assessLane Lane.assessed
  by_cases hM : M = L
  · subst hM
    by_cases ho : (s.lane M).isOpen
    · simp only [ho, if_true]
      split <;> simp
    · simp [ho]
  · rw [if_neg hM]
    dsimp only
    split
    · split
      · rw [State.lane_raise, State.lane_setLane_ne _ _ _ _ hM]
      · rw [State.lane_setLane_ne _ _ _ _ hM]
    · rfl

theorem State.assessLane_available (s : State) (L M : LaneId) : (s.assessLane L).available M = s.available M := by
  refine State.available_congr (fun K => ?_) M
  rw [State.assessLane_lane]
  split
  · rename_i h
    exact h ▸ Lane.assessed_sameButPoolFlags _ _
  · rfl

theorem State.foldl_assessLane_lane (Ls : List LaneId) (hn : Ls.Nodup) (s : State) (M : LaneId) :
    (Ls.foldl State.assessLane s).lane M = if M ∈ Ls then (s.lane M).assessed (s.available M) else s.lane M := by
  induction Ls generalizing s with
  | nil => rfl
  | cons L Ls ih =>
    obtain ⟨hL, hn⟩ := List.nodup_cons.1 hn
    rw [List.foldl_cons, ih hn, State.assessLane_lane, State.assessLane_available]
    by_cases hM : M = L
    · subst hM
      rw [if_neg hL, if_pos rfl, if_pos List.mem_cons_self]
    · simp [hM]

/-- Every lane is assessed against its available count as it stands. -/
theorem State.assess_lane (s : State) (M : LaneId) : s.assess.lane M = (s.lane M).assessed (s.available M) := by
  rw [State.assess, State.foldl_assessLane_lane _ (by decide), if_pos (by revert M; decide)]

theorem State.assess_sameButPoolFlags (s : State) (M : LaneId) : (s.lane M).sameButPoolFlags (s.assess.lane M) := by
  rw [State.assess_lane]
  exact Lane.assessed_sameButPoolFlags _ _

theorem State.assess_lane_closed {s : State} {M : LaneId} (h : (s.lane M).isOpen = false) :
    s.assess.lane M = s.lane M := by
  rw [State.assess_lane, Lane.assessed, h]
  rfl

/-- Of a port, only notice entries differ. -/
def PortRec.SameButEntries (q r : PortRec) : Prop := r = { q with entries := r.entries }

theorem PortRec.SameButEntries.trans {q r u : PortRec} (h : q.SameButEntries r) (h' : r.SameButEntries u) :
    q.SameButEntries u := by
  unfold PortRec.SameButEntries at h h' ⊢
  calc u = { r with entries := u.entries } := h'
    _ = _ := by rw [h]

theorem State.raise_sameButEntries (s : State) (c : NoticeCode) (who : Option LaneId) (pos d : Nat) (q : Port) :
    (s.port q).SameButEntries ((s.raise c who pos d).port q) := by
  rw [State.port_raise]
  rfl

/-- The assessment reaches of a port only notice entries of category POOL. -/
theorem State.assess_port (s : State) (q : Port) : (s.port q).SameButEntries (s.assess.port q) ∧
    ∀ i : Fin 42, i.val / 7 ≠ 2 → (s.assess.port q).entries[i.val] = (s.port q).entries[i.val] := by
  unfold State.assess
  refine List.foldlRecOn (motive := fun t : State => (s.port q).SameButEntries (t.port q) ∧
    ∀ i : Fin 42, i.val / 7 ≠ 2 → (t.port q).entries[i.val] = (s.port q).entries[i.val]) _ _ ⟨rfl, fun _ _ => rfl⟩ ?_
  intro t ⟨ht, he⟩ L _
  unfold State.assessLane
  dsimp only
  split
  · split
    · refine ⟨ht.trans ?_, fun i hi => ?_⟩
      · have h := State.raise_sameButEntries (t.setLane L { t.lane L with
            low := decide (t.available L < Config.lowMark)
            armed := (t.lane L).armed || decide (Config.lowMark < t.available L) }) .poolLow (some L)
          (t.lane L).analysis (t.available L) q
        rwa [State.port_setLane] at h
      · rw [State.raise_entry_ne]
        · simp only [State.port_setLane]
          exact he i hi
        · intro h
          have hv : i.val = 7 * 2 + L.val := congrArg Fin.val h
          have := L.isLt
          omega
    · simp only [State.port_setLane]
      exact ⟨ht, he⟩
  · exact ⟨ht, he⟩

/-- The rest of the part stands. -/
theorem State.assess_rest (s : State) : s.assess.store = s.store ∧ s.assess.engine = s.engine ∧
    s.assess.tick = s.tick ∧ s.assess.lines = s.lines ∧ s.assess.library = s.library ∧
    s.assess.events = s.events ∧ s.assess.pending = s.pending := by
  obtain ⟨h1, h2, h3, h4, h5, h6⟩ := ((State.Works.refl 0 s).assess).rest
  refine ⟨?_, h1, h2, h3, h4, h5, h6⟩
  unfold State.assess
  refine List.foldlRecOn (motive := fun t : State => t.store = s.store) _ _ rfl fun t ht L _ => ?_
  unfold State.assessLane
  dsimp only
  split
  · split
    · rw [State.raise_store]
      exact ht
    · exact ht
  · exact ht

/-- A notice raised reaches nothing but the ports. -/
theorem State.raise_rest (s : State) (c : NoticeCode) (who : Option LaneId) (pos d : Nat) :
    (s.raise c who pos d).engine = s.engine ∧ (s.raise c who pos d).tick = s.tick ∧
    (s.raise c who pos d).lines = s.lines ∧ (s.raise c who pos d).library = s.library ∧
    (s.raise c who pos d).events = s.events ∧ (s.raise c who pos d).pending = s.pending :=
  ⟨rfl, rfl, rfl, rfl, rfl, rfl⟩

/-- An entry of category LANE is none of category POOL. -/
theorem entryIndex_zero_div (L : LaneId) : (entryIndex 0 (some L)).val / 7 ≠ 2 := by
  have := L.isLt
  show (7 * 0 + L.val) / 7 ≠ 2
  omega

/-- An entry of category LANE folds the same occurrence into it wherever entry and event number are the same. -/
theorem State.foldedEntry_congr {s t : State} {q : Port} {c : NoticeCode} {who : Option LaneId}
    (he : (t.port q).entries[(entryIndex c.category who).val] = (s.port q).entries[(entryIndex c.category who).val])
    (hn : t.events = s.events) (pos d : Nat) : t.foldedEntry q c who pos d = s.foldedEntry q c who pos d := by
  rw [State.foldedEntry_eq, State.foldedEntry_eq, he, hn]

/-! ### The codes of a LANE OPEN (R2) -/

theorem Byte.eq_zero_or_one {b : Byte} (h : b.toNat ≤ 1) : b = 0#8 ∨ b = 1#8 := by
  rcases Nat.le_one_iff_eq_zero_or_eq_one.1 h with h | h
  · exact .inl (BitVec.eq_of_toNat_eq h)
  · exact .inr (BitVec.eq_of_toNat_eq h)

theorem portOf_le {b : Byte} {p : Port} (h : portOf b = some p) : b.toNat ≤ 1 := by
  unfold portOf at h
  split at h
  · simp [*]
  · split at h
    · simp [*]
    · cases h

theorem rateOf_le {b : Byte} {r : Rate} (h : rateOf b = some r) : b.toNat ≤ 1 := by
  unfold rateOf at h
  split at h
  · simp [*]
  · split at h
    · simp [*]
    · cases h

theorem roundingOf_le {b : Byte} {r : Rounding} (h : roundingOf b = some r) : b.toNat ≤ 1 := by
  unfold roundingOf at h
  split at h
  · simp [*]
  · split at h
    · simp [*]
    · cases h

theorem onOff_le {b : Byte} {r : Bool} (h : onOff b = some r) : b.toNat ≤ 1 := by
  unfold onOff at h
  split at h
  · simp [*]
  · split at h
    · simp [*]
    · cases h

theorem widthOf_defined {b : Byte} {w : Width} (h : widthOf b = some w) : b = 16#8 ∨ b = 24#8 := by
  unfold widthOf at h
  split at h
  · exact .inl ‹_›
  · split at h
    · exact .inr ‹_›
    · cases h

theorem slotNumber_le {b : Byte} {n : Fin 32} (h : slotNumber b = some n) : b.toNat ≤ 31 := by
  unfold slotNumber at h
  split at h
  · omega
  · cases h

theorem boundLineOf_le {b : Byte} {l : Option LineId} (h : boundLineOf b = some l) (hb : b ≠ 0xFF#8) :
    b.toNat ≤ 3 := by
  unfold boundLineOf lineOf at h
  rw [if_neg hb] at h
  split at h
  · omega
  · cases h

theorem ringSizeOk_iff (n : Nat) : ringSizeOk n = true ↔ 8 ≤ n ∧ n ≤ 64 ∧ n % 8 = 0 := by
  simp [ringSizeOk, and_assoc]

theorem portOf_eq {b : Byte} (h : b.toNat ≤ 1) : portOf b = some (if b = 0#8 then .A else .B) := by
  rcases Byte.eq_zero_or_one h with rfl | rfl <;> rfl

theorem rateOf_eq {b : Byte} (h : b.toNat ≤ 1) : rateOf b = some (if b = 0#8 then .k48 else .k96) := by
  rcases Byte.eq_zero_or_one h with rfl | rfl <;> rfl

theorem roundingOf_eq {b : Byte} (h : b.toNat ≤ 1) :
    roundingOf b = some (if b = 0#8 then .nearest else .truncate) := by
  rcases Byte.eq_zero_or_one h with rfl | rfl <;> rfl

theorem onOff_eq {b : Byte} (h : b.toNat ≤ 1) : onOff b = some (decide (b = 1#8)) := by
  rcases Byte.eq_zero_or_one h with rfl | rfl <;> rfl

theorem widthOf_eq {b : Byte} (h : b = 16#8 ∨ b = 24#8) : widthOf b = some (if b = 16#8 then .w16 else .w24) := by
  rcases h with rfl | rfl <;> rfl

theorem slotNumber_eq {b : Byte} {n : Fin 32} (h : b.toNat = n.val) : slotNumber b = some n := by
  unfold slotNumber
  rw [dif_pos (h ▸ n.isLt)]
  exact congrArg some (Fin.ext h)

theorem boundLineOf_eq {b : Byte} (h : b ≠ 0xFF#8 → b.toNat ≤ 3) : boundLineOf b = some (lineOf b) := by
  unfold boundLineOf
  split
  · rename_i hb
    subst hb
    rfl
  · rename_i hb
    have := h hb
    simp [lineOf, show b.toNat < 4 by omega]

/-- The settings whose every code is defined pass the checks. -/
theorem openSettings_sound {a : LaneOpenArgs} {o : OpenSettings} (h : openSettings a = some o) : ¬ openRefused a := by
  unfold openSettings at h
  split at h
  · rename_i hring
    rw [Bool.and_eq_true, ringSizeOk_iff, decide_eq_true_eq] at hring
    split at h
    · rename_i hsource hsink hrate hslot hline hwidth hrounding hlog
      have h1 := portOf_le hsource
      have h2 := portOf_le hsink
      have h3 := rateOf_le hrate
      have h4 := slotNumber_le hslot
      have h5 := boundLineOf_le hline
      have h6 := widthOf_defined hwidth
      have h7 := roundingOf_le hrounding
      have h8 := onOff_le hlog
      rintro (h | h | h | h | h | h | h | h | ⟨hb, h⟩ | ⟨hb, h⟩ | h | h)
      case inr.inr.inr.inr.inr.inr.inr.inr.inl =>
        have := h5 hb
        omega
      case inr.inr.inr.inr.inr.inr.inr.inr.inr.inl => exact h6.elim hb h
      all_goals omega
    · cases h
  · cases h

theorem openSettings_none {a : LaneOpenArgs} (h : openRefused a) : openSettings a = none := by
  cases ho : openSettings a with
  | none => rfl
  | some o => exact absurd h (openSettings_sound ho)

/-- The settings of a LANE OPEN whose every check passes. -/
theorem openSettings_eq {a : LaneOpenArgs} (h : ¬ openRefused a) {slot : Fin 32} (hslot : a.slot.toNat = slot.val) :
    openSettings a = some
      { source := if a.source = 0#8 then .A else .B
        sink := if a.sink = 0#8 then .A else .B
        rate := if a.rate = 0#8 then .k48 else .k96
        slot := slot
        line := lineOf a.line
        width := if a.width = 16#8 then .w16 else .w24
        rounding := if a.rounding = 0#8 then .nearest else .truncate
        log := decide (a.log = 1#8) } := by
  simp only [openRefused, not_or, not_and, not_lt, Classical.not_not] at h
  obtain ⟨h1, h2, h3, h4, h5, h6, h7, -, h9, h10, h11, h12⟩ := h
  have hring : (ringSizeOk a.ringSize.toNat && decide (a.reserve.toNat ≤ 1024)) = true := by
    rw [Bool.and_eq_true, ringSizeOk_iff, decide_eq_true_eq]
    exact ⟨⟨h4, h5, h6⟩, h7⟩
  have hw : a.width = 16#8 ∨ a.width = 24#8 := or_iff_not_imp_left.2 h10
  rw [openSettings, if_pos hring, portOf_eq h1, portOf_eq h2, rateOf_eq h3, slotNumber_eq hslot, boundLineOf_eq h9,
    widthOf_eq hw, roundingOf_eq h11, onOff_eq h12]

/-! ### LANE OPEN refused (R2) -/

theorem exec_laneOpen {s : State} {p : Port} {tag : Half} {lane : Byte} {a : LaneOpenArgs} {rest : List Entry}
    (h : s.offers p (.whole tag lane (.laneOpen a)) rest) :
    exec (.laneOpen p tag lane a) s = .next ((s.took p rest).laneOpen p tag lane a) :=
  State.take_offers h (·.laneOpen p tag lane a)

/-- The taking of an entry leaves what LANE OPEN checks. -/
theorem State.took_checkOpen (s : State) (p : Port) (rest : List Entry) (lane : Byte) (a : LaneOpenArgs) :
    (s.took p rest).checkOpen lane a = s.checkOpen lane a := by
  cases p <;> rfl

theorem State.laneOpen_refused {s : State} {p : Port} {tag : Half} {lane : Byte} {a : LaneOpenArgs}
    {rest : List Entry} {st : Status} (h : s.offers p (.whole tag lane (.laneOpen a)) rest)
    (hc : s.checkOpen lane a = .inl st) :
    exec (.laneOpen p tag lane a) s = .next ((s.took p rest).replied p tag lane st [0x01#8, 0#8]) := by
  rw [exec_laneOpen h, State.laneOpen, State.took_checkOpen, hc]
  rfl

theorem State.freeCommon_eq (s : State) : s.freeCommon =
    4096 - (laneIds.map fun M => if (s.lane M).state = .closed then 0 else (s.lane M).reserve).sum -
      (laneIds.map fun M =>
        if (s.lane M).state = .closed then 0 else (s.lane M).list.length - (s.lane M).reserve).sum := by
  have hr : ∀ l : Lane, l.reserved = if l.state = .closed then 0 else l.reserve := by
    intro l
    cases hl : l.state <;> simp [Lane.reserved, Lane.isOpen, hl]
  have hc : ∀ l : Lane, l.commonHeld = if l.state = .closed then 0 else l.list.length - l.reserve := by
    intro l
    cases hl : l.state <;> simp [Lane.commonHeld, Lane.isOpen, hl]
  simp only [State.freeCommon, State.commonShare, State.sumLanes, hr, hc]
  rfl

theorem State.hasRoom_iff (s : State) (a : LaneOpenArgs) :
    s.hasRoom a = true ↔ a.ringSize.toNat ≤ s.freeSlots.length ∧ a.reserve.toNat ≤ s.freeCommon := by
  simp [State.hasRoom]

/-- Settles O16: the first check of `State.checkOpen` that fails names the status. -/
theorem laneOpenRefusals : Obligations.LaneOpenRefusals := by
  intro s p tag lane a rest hoff refused
  have hrefused : ∀ st, s.checkOpen lane a = .inl st → refused st := fun st hc => State.laneOpen_refused hoff hc
  refine ⟨fun h => hrefused _ ?_, fun L hL => ⟨fun ho => hrefused _ ?_, fun hc => ⟨fun hr => hrefused _ ?_,
    fun hr hroom => hrefused _ ?_⟩⟩⟩
  · rw [State.checkOpen, laneOf_none h]
  · simp only [State.checkOpen, laneOf_of_toNat hL, (Lane.isOpen_iff _).2 ho, if_true]
  · simp only [State.checkOpen, laneOf_of_toNat hL, (Lane.isOpen_false_iff _).2 hc, openSettings_none hr]
    rfl
  · have hslot : a.slot.toNat < 32 := by
      simp only [openRefused, not_or] at hr
      omega
    have hfull : s.hasRoom a = false := by
      rw [← Bool.not_eq_true, State.hasRoom_iff, State.freeCommon_eq]
      unfold State.freeSlots
      rintro ⟨h1, h2⟩
      rcases hroom with h | h
      · exact absurd h1 (Nat.not_le.2 h)
      · exact absurd h2 (Nat.not_le.2 h)
    simp only [State.checkOpen, laneOf_of_toNat hL, (Lane.isOpen_false_iff _).2 hc,
      openSettings_eq hr (slot := ⟨a.slot.toNat, hslot⟩) rfl, hfull]
    rfl

/-! ### LANE OPEN taken (R3, R9) -/

/-- The answer to a request, on its port and on the other. -/
theorem State.port_replied (s : State) (p : Port) (tag : Half) (lane : Byte) (st : Status) (b : List Byte) (q : Port) :
    (s.replied p tag lane st b).port q = if q = p then
      { s.port q with
        inProgress := some tag
        answers := (s.port q).answers ++
          [{ tag := tag, lane := lane, status := st, payload := b, ofParked := false }] }
    else s.port q := by
  cases p <;> cases q <;> rfl

@[simp] theorem State.replied_lane (s : State) (p : Port) (tag : Half) (lane : Byte) (st : Status) (b : List Byte)
    (L : LaneId) : (s.replied p tag lane st b).lane L = s.lane L := by
  cases p <;> rfl

/-- An assessment followed by a notice of category LANE: what a lane that opens or leaves ends with. -/
def State.assessRaise (s : State) (c : NoticeCode) (L : LaneId) (pos : Nat) : State :=
  s.assess.raise c (some L) pos 0

theorem State.assessRaise_lane (s : State) (c : NoticeCode) (L M : LaneId) (pos : Nat) :
    (s.assessRaise c L pos).lane M = (s.lane M).assessed (s.available M) := by
  rw [State.assessRaise, State.lane_raise, State.assess_lane]

theorem State.assessRaise_sameButPoolFlags (s : State) (c : NoticeCode) (L M : LaneId) (pos : Nat) :
    (s.lane M).sameButPoolFlags ((s.assessRaise c L pos).lane M) := by
  rw [State.assessRaise_lane]
  exact Lane.assessed_sameButPoolFlags _ _

theorem State.assessRaise_available (s : State) (c : NoticeCode) (L M : LaneId) (pos : Nat) :
    (s.assessRaise c L pos).available M = s.available M :=
  State.available_congr (fun K => s.assessRaise_sameButPoolFlags c L K pos) M

theorem State.assessRaise_port (s : State) (c : NoticeCode) (L : LaneId) (pos : Nat) (q : Port) :
    (s.port q).SameButEntries ((s.assessRaise c L pos).port q) :=
  (s.assess_port q).1.trans (s.assess.raise_sameButEntries c (some L) pos 0 q)

/-- The notice finds its entry as it was before the assessment. -/
theorem State.assessRaise_entry (s : State) {c : NoticeCode} (hc : c.category = 0) (L : LaneId) (pos : Nat) (q : Port) :
    ((s.assessRaise c L pos).port q).entries[(entryIndex 0 (some L)).val] = s.foldedEntry q c (some L) pos 0 := by
  have hentry := s.assess.raise_entry c (some L) pos 0 q
  obtain ⟨-, -, -, -, -, hev, -⟩ := s.assess_rest
  simp only [hc] at hentry
  refine hentry.trans (State.foldedEntry_congr ?_ hev _ _)
  simp only [hc]
  exact (s.assess_port q).2 _ (entryIndex_zero_div L)

theorem State.assessRaise_rest (s : State) (c : NoticeCode) (L : LaneId) (pos : Nat) :
    (s.assessRaise c L pos).store = s.store ∧ (s.assessRaise c L pos).engine = s.engine ∧
    (s.assessRaise c L pos).tick = s.tick ∧ (s.assessRaise c L pos).lines = s.lines ∧
    (s.assessRaise c L pos).library = s.library ∧ (s.assessRaise c L pos).pending = s.pending := by
  obtain ⟨hstore, hengine, htick, hlines, hlib, -, hpend⟩ := s.assess_rest
  obtain ⟨hre, hrt, hrl, hrlib, -, hrp⟩ := s.assess.raise_rest c (some L) pos 0
  exact ⟨(s.assess.raise_store _ _ _ _).trans hstore, hre.trans hengine, hrt.trans htick, hrl.trans hlines,
    hrlib.trans hlib, hrp.trans hpend⟩

/-- The part with the lane open, before the pool is assessed. -/
def State.withOpened (s : State) (L : LaneId) (a : LaneOpenArgs) (o : OpenSettings) : State :=
  (s.setLane L (openedLane a o (s.freeSlots.take a.ringSize.toNat) s.library[o.slot.val])).setStore
    (s.store.setCheckpoint ((s.freeSlots.take a.ringSize.toNat).headD 0) Checkpoint.zero)

theorem State.openLane_eq (s : State) (L : LaneId) (a : LaneOpenArgs) (o : OpenSettings) :
    s.openLane L a o = (s.withOpened L a o).assessRaise .laneOpened L a.start.toNat := rfl

theorem State.openLane_lane (s : State) (L : LaneId) (a : LaneOpenArgs) (o : OpenSettings) :
    (s.openLane L a o).lane L =
      { openedLane a o (s.freeSlots.take a.ringSize.toNat) s.library[o.slot.val] with
        low := decide ((s.openLane L a o).available L < 64) } := by
  have hlane : (s.withOpened L a o).lane L =
      openedLane a o (s.freeSlots.take a.ringSize.toNat) s.library[o.slot.val] := State.lane_setLane_same _ _ _
  rw [State.openLane_eq, State.assessRaise_lane, State.assessRaise_available, hlane]
  rfl

theorem State.openLane_other (s : State) {L M : LaneId} (hM : M ≠ L) (a : LaneOpenArgs) (o : OpenSettings) :
    (s.lane M).sameButPoolFlags ((s.openLane L a o).lane M) := by
  have hlane : (s.withOpened L a o).lane M = s.lane M := State.lane_setLane_ne _ _ _ _ hM
  rw [State.openLane_eq, ← hlane]
  exact State.assessRaise_sameButPoolFlags _ _ _ _ _

theorem State.withOpened_port (s : State) (L : LaneId) (a : LaneOpenArgs) (o : OpenSettings) (q : Port) :
    (s.withOpened L a o).port q = s.port q := by
  cases q <;> rfl

theorem State.openLane_port (s : State) (L : LaneId) (a : LaneOpenArgs) (o : OpenSettings) (q : Port) :
    (s.port q).SameButEntries ((s.openLane L a o).port q) := by
  rw [State.openLane_eq, ← s.withOpened_port L a o q]
  exact State.assessRaise_port _ _ _ _ _

theorem State.openLane_entry (s : State) (L : LaneId) (a : LaneOpenArgs) (o : OpenSettings) (q : Port) :
    ((s.openLane L a o).port q).entries[(entryIndex 0 (some L)).val] =
      s.foldedEntry q .laneOpened (some L) a.start.toNat 0 := by
  rw [State.openLane_eq, State.assessRaise_entry _ rfl]
  exact State.foldedEntry_congr (by rw [State.withOpened_port]) rfl _ _

theorem State.port_took (s : State) (p : Port) (rest : List Entry) (q : Port) :
    (s.took p rest).port q = if q = p then { s.port q with queue := rest } else s.port q := by
  cases p <;> cases q <;> rfl

/-- Settles O17: the checks pass by `openSettings_eq` and `State.hasRoom_iff`, and the opened lane is read off
`State.openLane_spec`. -/
theorem laneOpenOpensTheLane : Obligations.LaneOpenOpensTheLane := by
  intro s p tag lane a rest L slot hoff hL hclosed hrefused hslot hring hreserve d ring before
  have hcheck := State.checkOpen.eq_def s lane a
  simp only [laneOf_of_toNat hL, (Lane.isOpen_false_iff _).2 hclosed, openSettings_eq hrefused hslot,
    (s.hasRoom_iff a).2 ⟨hring, hreserve⟩, if_true, Bool.false_eq_true, if_false] at hcheck
  rw [exec_laneOpen hoff, State.laneOpen, State.took_checkOpen, hcheck]
  dsimp only
  generalize ho : OpenSettings.mk _ _ _ _ _ _ _ _ = o
  have hfree : (s.took p rest).freeSlots = s.freeSlots := by cases p <;> rfl
  obtain ⟨hstore, hengine, htick, hlines, hlib, hpend⟩ :=
    ((s.took p rest).withOpened L a o).assessRaise_rest .laneOpened L a.start.toNat
  rw [← State.openLane_eq] at hstore hengine htick hlines hlib hpend
  have hlane := (s.took p rest).openLane_lane L a o
  have hother := fun M (hM : M ≠ L) => (s.took p rest).openLane_other hM a o
  have hport := (s.took p rest).openLane_port L a o
  have hentry := (s.took p rest).openLane_entry L a o
  generalize (s.took p rest).openLane L a o = t at *
  have hlen : ring.length = a.ringSize.toNat := by
    unfold ring
    rw [List.length_take, Nat.min_eq_left hring]
  rw [State.answer_eq]
  have hreplied : ∀ st b q, ((t.replied p tag lane st b).port q).entries = (t.port q).entries := by
    intro st b q
    cases p <;> cases q <;> rfl
  refine ⟨_, rfl, ?_, fun M hM => ?_, ?_, ?_, ?_, ?_, ?_, ?_, fun q => ?_, fun q => ?_⟩
  · have havail : ∀ st b, (t.replied p tag lane st b).available L = t.available L := fun st b =>
      State.available_congr (fun M => by rw [State.replied_lane]; rfl) L
    rw [State.replied_lane, hlane, havail, hfree, State.took_library, ← ho]
    simp only [openedLane, ring] at hlen ⊢
    rw [hlen]
    rfl
  · rw [State.replied_lane, ← s.took_lane p rest M]
    exact hother M hM
  · refine ((State.setPort_store _ _ _).trans hstore).trans ?_
    rw [State.withOpened, State.setStore_store, hfree, State.took_store]
  · exact ((State.setPort_engine _ _ _).trans hengine).trans (s.took_engine p rest)
  · exact ((State.setPort_lines _ _ _).trans hlines).trans (s.took_lines p rest)
  · exact ((State.setPort_library _ _ _).trans hlib).trans (s.took_library p rest)
  · exact ((State.setPort_tick _ _ _).trans htick).trans (s.took_tick p rest)
  · exact ((State.setPort_pending _ _ _).trans hpend).trans (s.took_pending p rest)
  · rw [hreplied, hentry]
    refine State.foldedEntry_congr ?_ (State.took_events _ _ _) _ _
    rw [State.port_took]
    split <;> rfl
  · have hq := hport q
    unfold PortRec.SameButEntries at hq
    rw [hreplied, State.port_replied, State.port_replied, hq, State.port_took]
    split <;> rfl

end Sys2Proof.Machine

/-! PROOF. A lane that leaves: the answers to its parked requests, its flow entries and reservations, and its record.
The statements O48 and O18. -/

namespace Sys2Proof.Machine
open Sys2Proof

/-! ### Parked requests answered (R87, R159) -/

theorem PortRec.foldl_answerParked (ks : List Parked) (st : Status) (payload : Parked → List Byte) (q : PortRec) :
    ks.foldl (fun q k => q.answerParked k st (payload k)) q =
      { q with answers := q.answers ++ ks.map fun k =>
          { tag := k.tag, lane := laneByte k.lane, status := st, payload := payload k, ofParked := true } } := by
  induction ks generalizing q with
  | nil => simp
  | cons k ks ih =>
    rw [List.foldl_cons, ih]
    simp [PortRec.answerParked]

/-- The parked requests that satisfy `f` are answered in their order, and the others go on waiting. -/
theorem PortRec.answerWhere_eq (q : PortRec) (f : Parked → Bool) (st : Status) (payload : Parked → List Byte) :
    q.answerWhere f st payload =
      { q with
        parked := q.parked.filter fun k => !f k
        answers := q.answers ++ (q.parked.filter f).map fun k =>
          { tag := k.tag, lane := laneByte k.lane, status := st, payload := payload k, ofParked := true } } := by
  rw [PortRec.answerWhere, PortRec.foldl_answerParked]

/-- Both ports updated alike. -/
theorem State.port_modPorts (s : State) (f : PortRec → PortRec) (q : Port) :
    ((s.modPort .A f).modPort .B f).port q = f (s.port q) := by
  cases q <;> rfl

/-! ### A lane CLOSED -/

/-- A port without the flow entries and the reservation of a lane. -/
def PortRec.without (q : PortRec) (L : LaneId) : PortRec :=
  { q with
    flow := q.flow.filter fun e => e.lane != L
    reservation := Reservation.kept q.reservation fun v => v.lane == L }

/-- The part with the lane CLOSED, before the pool is assessed. -/
def State.withClosed (s : State) (L : LaneId) : State :=
  (((s.modPort .A (·.withdrawFlow L)).modPort .B (·.withdrawFlow L)).dropReservations L).modLane L Lane.closed

theorem State.closeLane_eq (s : State) (L : LaneId) : s.closeLane L = (s.withClosed L).assess := rfl

theorem State.withClosed_port (s : State) (L : LaneId) (q : Port) :
    (s.withClosed L).port q = (s.port q).without L := by
  cases q <;> rfl

theorem State.withClosed_lane (s : State) (L : LaneId) : (s.withClosed L).lane L = (s.lane L).closed := by
  simp [State.withClosed, State.dropReservations]

theorem State.withClosed_other (s : State) {L M : LaneId} (h : M ≠ L) : (s.withClosed L).lane M = s.lane M := by
  simp [State.withClosed, State.dropReservations, State.lane_modLane_ne _ _ _ _ h]

/-- What a lane that leaves ends with: it is CLOSED, and notice `c` is raised at `pos`. -/
def State.leaveLane (s : State) (L : LaneId) (c : NoticeCode) (pos : Nat) : State :=
  (s.withClosed L).assessRaise c L pos

theorem State.leaveLane_eq (s : State) (L : LaneId) (c : NoticeCode) (pos : Nat) :
    (s.closeLane L).raise c (some L) pos 0 = s.leaveLane L c pos := rfl

theorem State.leaveLane_lane (s : State) (L : LaneId) (c : NoticeCode) (pos : Nat) :
    (s.leaveLane L c pos).lane L = (s.lane L).closed := by
  rw [State.leaveLane, State.assessRaise_lane, State.withClosed_lane]
  rfl

theorem State.leaveLane_other (s : State) {L M : LaneId} (h : M ≠ L) (c : NoticeCode) (pos : Nat) :
    (s.lane M).sameButPoolFlags ((s.leaveLane L c pos).lane M) := by
  have hf := (s.withClosed L).assessRaise_sameButPoolFlags c L M pos
  rwa [State.withClosed_other _ h] at hf

theorem State.leaveLane_port (s : State) (L : LaneId) (c : NoticeCode) (pos : Nat) (q : Port) :
    ((s.port q).without L).SameButEntries ((s.leaveLane L c pos).port q) := by
  rw [← State.withClosed_port]
  exact State.assessRaise_port _ _ _ _ _

theorem State.leaveLane_entry (s : State) (L : LaneId) {c : NoticeCode} (hc : c.category = 0) (pos : Nat) (q : Port) :
    ((s.leaveLane L c pos).port q).entries[(entryIndex 0 (some L)).val] = s.foldedEntry q c (some L) pos 0 := by
  rw [State.leaveLane, State.assessRaise_entry _ hc]
  have hev : (s.withClosed L).events = s.events := by simp [State.withClosed, State.dropReservations]
  refine State.foldedEntry_congr ?_ hev _ _
  rw [State.withClosed_port]
  rfl

theorem State.leaveLane_rest (s : State) (L : LaneId) (c : NoticeCode) (pos : Nat) :
    (s.leaveLane L c pos).store = s.store ∧ (s.leaveLane L c pos).engine = s.engine ∧
    (s.leaveLane L c pos).tick = s.tick ∧ (s.leaveLane L c pos).lines = s.lines ∧
    (s.leaveLane L c pos).library = s.library ∧ (s.leaveLane L c pos).pending = s.pending :=
  (s.withClosed L).assessRaise_rest c L pos

/-! ### Drain completion (R7) -/

/-- The parked LANE DRAINs of the lane answered DONE on both ports. -/
def State.answerDrains (s : State) (L : LaneId) : State :=
  (s.modPort .A (·.answerWhere (·.isDrainOf L) .done Parked.donePayload)).modPort .B
    (·.answerWhere (·.isDrainOf L) .done Parked.donePayload)

theorem State.completeDrain_eq (s : State) (L : LaneId) :
    s.completeDrain L = (s.answerDrains L).leaveLane L .laneDrained (s.lane L).release := rfl

theorem State.answerDrains_port (s : State) (L : LaneId) (q : Port) :
    (s.answerDrains L).port q =
      { s.port q with
        parked := (s.port q).parked.filter fun k => !(k.lane == L && k.kind == .drain)
        answers := (s.port q).answers ++
          ((s.port q).parked.filter fun k => k.lane == L && k.kind == .drain).map fun k =>
            { tag := k.tag, lane := laneByte k.lane, status := .done, payload := [0x03#8], ofParked := true } } := by
  have hpay : ∀ ks : List Parked, (∀ k ∈ ks, k.isDrainOf L = true) → (ks.map fun k =>
      ({ tag := k.tag, lane := laneByte k.lane, status := .done, payload := k.donePayload, ofParked := true } :
        Response)) = ks.map fun k =>
      { tag := k.tag, lane := laneByte k.lane, status := .done, payload := [0x03#8], ofParked := true } := by
    refine fun ks hks => List.map_congr_left fun k hk => ?_
    have hkind : k.kind = .drain := by
      have := hks k hk
      simp only [Parked.isDrainOf, Bool.and_eq_true, beq_iff_eq] at this
      exact this.2
    simp [Parked.donePayload, hkind]
  rw [State.answerDrains, State.port_modPorts, PortRec.answerWhere_eq,
    hpay _ fun k hk => (List.mem_filter.1 hk).2]
  rfl

@[simp] theorem State.answerDrains_lane (s : State) (L M : LaneId) : (s.answerDrains L).lane M = s.lane M := by
  simp [State.answerDrains]

theorem State.completeDrain_lane (s : State) (L : LaneId) : (s.completeDrain L).lane L = (s.lane L).closed := by
  rw [State.completeDrain_eq, State.leaveLane_lane, State.answerDrains_lane]

theorem State.completeDrain_entry (s : State) (L : LaneId) (q : Port) :
    ((s.completeDrain L).port q).entries[(entryIndex 0 (some L)).val] =
      s.foldedEntry q .laneDrained (some L) (s.lane L).release 0 := by
  rw [State.completeDrain_eq, State.leaveLane_entry _ _ rfl]
  exact State.foldedEntry_congr (by rw [State.answerDrains_port]) (by simp [State.answerDrains]) _ _

theorem State.completeDrain_port (s : State) (L : LaneId) (q : Port) :
    (s.completeDrain L).port q = { s.port q with
      parked := (s.port q).parked.filter fun k => !(k.lane == L && k.kind == .drain)
      answers := (s.port q).answers ++
        ((s.port q).parked.filter fun k => k.lane == L && k.kind == .drain).map fun k =>
          { tag := k.tag, lane := laneByte k.lane, status := .done, payload := [0x03#8], ofParked := true }
      flow := (s.port q).flow.filter fun e => e.lane != L
      reservation := Reservation.kept (s.port q).reservation fun v => v.lane == L
      entries := ((s.completeDrain L).port q).entries } := by
  have h := (s.answerDrains L).leaveLane_port L .laneDrained (s.lane L).release q
  rw [← State.completeDrain_eq, State.answerDrains_port] at h
  exact h

theorem State.completeDrain_rest (s : State) (L : LaneId) :
    (s.completeDrain L).store = s.store ∧ (s.completeDrain L).engine = s.engine ∧
    (s.completeDrain L).tick = s.tick ∧ (s.completeDrain L).lines = s.lines ∧
    (s.completeDrain L).library = s.library := by
  obtain ⟨h1, h2, h3, h4, h5, -⟩ := (s.answerDrains L).leaveLane_rest L .laneDrained (s.lane L).release
  rw [State.completeDrain_eq, h1, h2, h3, h4, h5]
  simp [State.answerDrains]

theorem Lane.drainDone_iff (l : Lane) : l.drainDone = true ↔ l.state = .draining ∧ l.landing = [] ∧ l.logQueue = [] ∧
    l.release = l.fill ∧ (l.final ≠ none ∨ l.fill = l.start) := by
  simp [Lane.drainDone, and_assoc, Option.isSome_iff_ne_none]

theorem exec_drainCompletion {s : State} {L : LaneId} (h : (s.lane L).drainDone = true) :
    exec (.drainCompletion L) s = .next (s.event.completeDrain L) :=
  State.takePlace_due h (·.completeDrain L)

/-- Settles O48: the drain is done, and each field of what a completed drain leaves is one of the lemmas above. -/
theorem drainCompletionClosesTheLane : Obligations.DrainCompletionClosesTheLane := by
  intro s L l hstate hlanding hlog hrelease hfinal before
  have hdone : (s.lane L).drainDone = true :=
    (Lane.drainDone_iff _).2 ⟨hstate, hlanding, hlog, hrelease, .inl hfinal⟩
  obtain ⟨hstore, hengine, htick, hlines, hlib⟩ := s.event.completeDrain_rest L
  refine ⟨_, exec_drainCompletion hdone, ?_, fun M hM => ?_, hstore, hengine, hlines, hlib, htick, fun p => ⟨?_, ?_⟩⟩
  · rw [State.completeDrain_lane]
    rfl
  · have h := (s.event.answerDrains L).leaveLane_other hM .laneDrained (s.event.lane L).release
    rwa [← State.completeDrain_eq, State.answerDrains_lane] at h
  · exact s.event.completeDrain_entry L p
  · have h := s.event.completeDrain_port L p
    rwa [State.port_event] at h

/-! ### LANE CLOSE (R8) -/

/-- The parked requests of a lane answered CLOSED on both ports, and its render in flight abandoned. -/
def State.abandonWork (s : State) (L : LaneId) : State :=
  let t := (s.modPort .A (·.answerWhere (·.lane == L) .closed Parked.closedPayload)).modPort .B
    (·.answerWhere (·.lane == L) .closed Parked.closedPayload)
  t.setEngine (t.engine.abandon L)

theorem State.abandonLane_eq (s : State) (L : LaneId) :
    s.abandonLane L = (s.abandonWork L).leaveLane L .laneClosed (s.lane L).release := rfl

theorem State.abandonWork_port (s : State) (L : LaneId) (q : Port) :
    (s.abandonWork L).port q =
      { s.port q with
        parked := (s.port q).parked.filter fun k => !(k.lane == L)
        answers := (s.port q).answers ++ ((s.port q).parked.filter fun k => k.lane == L).map fun k =>
          { tag := k.tag
            lane := laneByte k.lane
            status := .closed
            payload := k.closedPayload
            ofParked := true } } := by
  rw [State.abandonWork, State.port_setEngine, State.port_modPorts, PortRec.answerWhere_eq]

@[simp] theorem State.abandonWork_lane (s : State) (L M : LaneId) : (s.abandonWork L).lane M = s.lane M := by
  simp [State.abandonWork]

theorem Engine.abandon_eq (e : Engine) (L : LaneId) : e.abandon L =
    { e with inFlight := e.inFlight.map fun r => { r with abandoned := r.abandoned || r.lane == L } } := by
  unfold Engine.abandon
  cases e.inFlight with
  | none => rfl
  | some r =>
    by_cases h : r.lane = L
    · simp [h]
    · simp [h, beq_false_of_ne h]

theorem exec_laneClose {s : State} {p : Port} {tag : Half} {lane : Byte} {rest : List Entry}
    (h : s.offers p (.whole tag lane .laneClose) rest) :
    exec (.laneClose p tag lane) s = .next ((s.took p rest).laneClose p tag lane) :=
  State.take_offers h (·.laneClose p tag lane)

theorem Parked.closedPayload_eq (k : Parked) : k.closedPayload = match k.kind with
    | .drain => [0x03#8]
    | .sync _ => [0x14#8, 0#8, 0#8, 0#8, 0#8] := by
  unfold Parked.closedPayload
  cases k.kind <;> rfl

/-- Settles O18: the checks of the lane number and of its state, and of an open lane what `State.abandonLane` leaves,
answered DONE behind its parked requests. -/
theorem laneCloseAbandonsTheLane : Obligations.LaneCloseAbandonsTheLane := by
  intro s p tag lane rest hoff refused
  have hexec := exec_laneClose hoff
  refine ⟨fun h => ?_, fun L hL => ⟨fun hc => ?_, fun ho => ?_⟩⟩
  · simp only [refused, hexec, State.laneClose, laneOf_none h]
    rfl
  · simp only [refused, hexec, State.laneClose, laneOf_of_toNat hL, State.took_lane, (Lane.isOpen_false_iff _).2 hc]
    rfl
  · intro before closedAnswers
    simp only [hexec, State.laneClose, laneOf_of_toNat hL, State.took_lane, (Lane.isOpen_iff _).2 ho, if_true,
      State.answer_eq]
    have hlane : ((s.took p rest).abandonLane L).lane L = (s.lane L).closed := by
      rw [State.abandonLane_eq, State.leaveLane_lane, State.abandonWork_lane, State.took_lane]
    have hother : ∀ M, M ≠ L → (s.lane M).sameButPoolFlags (((s.took p rest).abandonLane L).lane M) := by
      intro M hM
      have h := ((s.took p rest).abandonWork L).leaveLane_other hM .laneClosed ((s.took p rest).lane L).release
      rwa [← State.abandonLane_eq, State.abandonWork_lane, State.took_lane] at h
    have hentry : ∀ q, (((s.took p rest).abandonLane L).port q).entries[(entryIndex 0 (some L)).val] =
        before.foldedEntry q .laneClosed (some L) (s.lane L).release 0 := by
      intro q
      rw [State.abandonLane_eq, State.leaveLane_entry _ _ rfl, State.took_lane]
      refine State.foldedEntry_congr ?_ ?_ _ _
      · rw [State.abandonWork_port, State.port_took]
        cases p <;> cases q <;> rfl
      · simp [State.abandonWork, before]
    have hport : ∀ q, ((s.took p rest).abandonLane L).port q = { s.port q with
        queue := if q = p then rest else (s.port q).queue
        parked := (s.port q).parked.filter fun k => !(k.lane == L)
        answers := (s.port q).answers ++ closedAnswers (s.port q)
        flow := (s.port q).flow.filter fun e => e.lane != L
        reservation := Reservation.kept (s.port q).reservation fun v => v.lane == L
        entries := (((s.took p rest).abandonLane L).port q).entries } := by
      intro q
      have h := ((s.took p rest).abandonWork L).leaveLane_port L .laneClosed ((s.took p rest).lane L).release q
      rw [← State.abandonLane_eq, State.abandonWork_port, State.port_took] at h
      simp only [Parked.closedPayload_eq] at h
      rw [h]
      split <;> rfl
    obtain ⟨hstore, hengine, htick, hlines, hlib, hpend⟩ :=
      ((s.took p rest).abandonWork L).leaveLane_rest L .laneClosed ((s.took p rest).lane L).release
    rw [← State.abandonLane_eq] at hstore hengine htick hlines hlib hpend
    have hengine' : ((s.took p rest).abandonWork L).engine = s.engine.abandon L := by
      simp [State.abandonWork]
    generalize (s.took p rest).abandonLane L = t at *
    refine ⟨_, rfl, ?_, fun M hM => ?_, ?_, ?_, ?_, ?_, ?_, ?_, fun q => ?_, fun q => ?_⟩
    · rw [State.replied_lane, hlane]
      rfl
    · rw [State.replied_lane]
      exact hother M hM
    · rw [← Engine.abandon_eq, ← hengine', ← hengine]
      exact State.setPort_engine _ _ _
    · refine (State.setPort_store _ _ _).trans (hstore.trans ?_)
      simp [State.abandonWork]
    · refine (State.setPort_lines _ _ _).trans (hlines.trans ?_)
      simp [State.abandonWork]
    · refine (State.setPort_library _ _ _).trans (hlib.trans ?_)
      simp [State.abandonWork]
    · refine (State.setPort_tick _ _ _).trans (htick.trans ?_)
      simp [State.abandonWork]
    · refine (State.setPort_pending _ _ _).trans (hpend.trans ?_)
      simp [State.abandonWork]
    · rw [← hentry, State.port_replied]
      split <;> rfl
    · have hq := hport q
      rw [State.port_replied]
      by_cases h : q = p
      · simp only [if_pos h] at hq ⊢
        rw [hq]
      · simp only [if_neg h, List.append_nil] at hq ⊢
        exact hq

end Sys2Proof.Machine

/-! PROOF. The finishing of a DRAINING lane's analysis (R46, R63), exactly: what each close leaves of the lane, the
store and the ports. -/

namespace Sys2Proof.Machine
open Sys2Proof

/-! ### The frame of a close -/

/-- Of a port, only the reservation differs. -/
def PortRec.SameButReservation (q r : PortRec) : Prop := r = { q with reservation := r.reservation }

/-- From `s` to `t` only lane `L`, raw values of the store and reservations of the ports can differ. -/
structure State.Closes (L : LaneId) (s t : State) : Prop where
  other : ∀ M, M ≠ L → t.lane M = s.lane M
  port : ∀ q, (s.port q).SameButReservation (t.port q)
  rest : t.engine = s.engine ∧ t.tick = s.tick ∧ t.lines = s.lines ∧ t.library = s.library ∧ t.events = s.events

namespace State.Closes
variable {L : LaneId} {r s : State}

theorem refl (L : LaneId) (s : State) : s.Closes L s := ⟨fun _ _ => rfl, fun _ => rfl, rfl, rfl, rfl, rfl, rfl⟩

theorem trans {t : State} (h : r.Closes L s) (h' : s.Closes L t) : r.Closes L t where
  other M hM := (h'.other M hM).trans (h.other M hM)
  port q := by
    have h1 := h.port q
    have h2 := h'.port q
    unfold PortRec.SameButReservation at h1 h2 ⊢
    calc t.port q = { s.port q with reservation := (t.port q).reservation } := h2
      _ = _ := by rw [h1]
  rest := by
    obtain ⟨h1, h2, h3, h4, h5⟩ := h.rest
    obtain ⟨g1, g2, g3, g4, g5⟩ := h'.rest
    exact ⟨g1.trans h1, g2.trans h2, g3.trans h3, g4.trans h4, g5.trans h5⟩

theorem modLane (h : r.Closes L s) (f : Lane → Lane) : r.Closes L (s.modLane L f) :=
  h.trans ⟨fun M hM => State.lane_modLane_ne _ _ _ _ hM, fun q => by rw [State.port_modLane]; rfl,
    rfl, rfl, rfl, rfl, rfl⟩

theorem setStore (h : r.Closes L s) (m : SampleStore) : r.Closes L (s.setStore m) :=
  h.trans ⟨fun _ _ => rfl, fun q => by rw [State.port_setStore]; rfl, rfl, rfl, rfl, rfl, rfl⟩

theorem recordTouched (h : r.Closes L s) (lo hi : Nat) : r.Closes L (s.recordTouched L lo hi) :=
  h.trans ⟨fun M _ => by simp [State.recordTouched], fun q => by cases q <;> rfl, by simp [State.recordTouched],
    by simp [State.recordTouched], by simp [State.recordTouched], by simp [State.recordTouched],
    by simp [State.recordTouched]⟩

theorem closeSpan (h : r.Closes L s) (sp : Span) : r.Closes L (s.closeSpan L sp) := by
  unfold State.closeSpan
  dsimp only
  split
  · exact h.modLane _
  · have hu := fun rs => State.Closes.recordTouched
      (State.Closes.modLane (h.modLane fun l => { l with span := some { sp with phase := .waiting } })
        fun l => { l with list := rs }) sp.start sp.last
    split
    · split
      · exact (hu _).modLane _
      · exact (hu _).modLane _
      · exact hu _
    · exact hu _

theorem endSpan (h : r.Closes L s) (sp : Span) (x : Int) : r.Closes L (s.endSpan L sp x) := by
  unfold State.endSpan
  dsimp only
  split
  · exact State.Closes.recordTouched (State.Closes.modLane (h.modLane _) _) _ _
  · exact State.Closes.modLane (h.setStore _) _

theorem closePiece (h : r.Closes L s) (x : Int) : r.Closes L (s.closePiece L x) := by
  unfold State.closePiece
  dsimp only
  split
  · exact h
  · split
    · exact h.modLane _
    · exact State.Closes.recordTouched (State.Closes.modLane (h.modLane _) _) _ _
  · exact State.Closes.modLane (h.setStore _) _

end State.Closes

/-! ### The ring of a lane -/

/-- Two lane records of one ring: the same geometry and the same block states. -/
structure Lane.SameRing (l m : Lane) : Prop where
  start : m.start = l.start
  ring : m.ring = l.ring
  fill : m.fill = l.fill
  release : m.release = l.release
  final : m.final = l.final
  blocks : m.blocks = l.blocks

namespace Lane.SameRing
variable {l m : Lane} (h : l.SameRing m)
include h

theorem ord (pos : Nat) : m.ord pos = l.ord pos := by simp only [Lane.ord, h.start]
theorem firstOf (j : Nat) : m.firstOf j = l.firstOf j := by simp only [Lane.firstOf, h.start]
theorem entryOf (j : Nat) : m.entryOf j = l.entryOf j := by simp only [Lane.entryOf, Lane.ringSize, h.ring]
theorem block (j : Nat) : m.block j = l.block j := by simp only [Lane.block, h.entryOf, h.blocks]
theorem lengthOf (j : Nat) : m.lengthOf j = l.lengthOf j := by
  unfold Lane.lengthOf
  rw [h.final, h.firstOf, h.fill]
theorem lastOf (j : Nat) : m.lastOf j = l.lastOf j := by simp only [Lane.lastOf, h.firstOf, h.lengthOf]
theorem cell (pos : Nat) : m.cell pos = l.cell pos := by
  simp only [Lane.cell, Lane.slotOf, h.entryOf, h.ord, h.ring, h.start]
theorem oldest : m.oldest = l.oldest := by simp only [Lane.oldest, h.release, h.start]
theorem ordinals : m.ordinals = l.ordinals := by simp only [Lane.ordinals, Lane.ringSize, h.ring, h.oldest]
theorem blockMeets (j lo hi : Nat) : m.blockMeets j lo hi = l.blockMeets j lo hi := by
  simp only [Lane.blockMeets, h.firstOf, h.lastOf]

theorem setBlock (j : Nat) (b : Block) : m.setBlock j b = { m with blocks := (l.setBlock j b).blocks } := by
  simp only [Lane.setBlock, h.entryOf, h.blocks]

theorem setBlock_sameRing (j : Nat) (b : Block) : (l.setBlock j b).SameRing (m.setBlock j b) :=
  ⟨h.start, h.ring, h.fill, h.release, h.final, by rw [h.setBlock]⟩

theorem blockEnd (n : Nat) : m.blockEnd n = { m with blocks := (l.blockEnd n).blocks } := by
  unfold Lane.blockEnd
  simp only [h.lastOf, h.ord, h.block]
  split
  · exact h.setBlock _ _
  · rw [← h.blocks]

theorem blockEnd_finished (n : Nat) :
    { m.blockEnd n with finished := true } = { m with finished := true, blocks := (l.blockEnd n).blocks } := by
  rw [h.blockEnd]

end Lane.SameRing

/-! ### Reservations lost reach no lane and no store -/

@[simp] theorem State.lane_recordTouched (s : State) (K : LaneId) (lo hi : Nat) (M : LaneId) :
    (s.recordTouched K lo hi).lane M = s.lane M := by simp [State.recordTouched]

@[simp] theorem State.recordTouched_store (s : State) (K : LaneId) (lo hi : Nat) :
    (s.recordTouched K lo hi).store = s.store := by simp [State.recordTouched]

/-- The same for the records of a whole list. -/
theorem State.foldl_recordTouched (L : LaneId) (rs : List Record) (s : State) :
    let t := rs.foldl (fun t r => t.recordTouched L r.start r.last) s
    s.Closes L t ∧ t.lane L = s.lane L ∧ t.store = s.store := by
  induction rs generalizing s with
  | nil => exact ⟨.refl L s, rfl, rfl⟩
  | cons r rs ih =>
    obtain ⟨hc, hl, hs⟩ := ih (s.recordTouched L r.start r.last)
    exact ⟨((State.Closes.refl L s).recordTouched _ _).trans hc, hl.trans (by simp), hs.trans (by simp)⟩

/-! ### The lane after each close -/

theorem State.count_lane (s : State) (L : LaneId) (c : Ctr) : (s.count L c).lane L = (s.lane L).count c :=
  State.lane_modLane_same _ _ _

/-- The record of a closing span: a CLICK longer than the span's burst limit becomes a BURST (R34). -/
def Record.burstBeyond (n : Nat) (r : Record) : Record :=
  if r.kind = .click ∧ n < r.length then { r with kind := .burst } else r

/-- A record closed with after-anchor 0. -/
def Record.endedAtZero (r : Record) : Record := { r with state := .live, after := some 0 }

/-- A LISTED span is WAITING, its record closed and its reservations lost. -/
def State.waitingSpan (s : State) (L : LaneId) (sp : Span) : State :=
  ((s.setSpan L (some { sp with phase := .waiting })).setList L
    (updateRecord sp.start (Record.burstBeyond sp.lmax) (s.lane L).list)).recordTouched L sp.start sp.last

theorem State.closeSpan_unlisted {sp : Span} (h : sp.form = .unlisted) (s : State) (L : LaneId) :
    s.closeSpan L sp = s.setSpan L (some { sp with phase := .waiting }) := by
  simp only [State.closeSpan, h]

/-- The close of a LISTED span, and perhaps a count. -/
theorem State.closeSpan_listed {sp : Span} (h : sp.form = .listed) (s : State) (L : LaneId) :
    s.closeSpan L sp = s.waitingSpan L sp ∨ ∃ c, s.closeSpan L sp = (s.waitingSpan L sp).count L c := by
  cases sp
  subst h
  unfold State.closeSpan
  dsimp only
  split
  · split
    · exact .inr ⟨_, rfl⟩
    · exact .inr ⟨_, rfl⟩
    · exact .inl rfl
  · exact .inl rfl

theorem State.closeSpan_lane (s : State) (L : LaneId) (sp : Span) : ∃ c, (s.closeSpan L sp).lane L = { s.lane L with
    span := some { sp with phase := .waiting }
    list := if sp.form = .listed then updateRecord sp.start (Record.burstBeyond sp.lmax) (s.lane L).list
      else (s.lane L).list
    counters := c } := by
  cases hf : sp.form with
  | unlisted => exact ⟨(s.lane L).counters, by simp [State.closeSpan_unlisted hf, State.setSpan, hf]⟩
  | listed =>
    have hu : (s.waitingSpan L sp).lane L = { s.lane L with
        span := some { sp with phase := .waiting }
        list := updateRecord sp.start (Record.burstBeyond sp.lmax) (s.lane L).list } := by
      simp [State.waitingSpan, State.setSpan, State.setList]
    rcases s.closeSpan_listed hf L with h | ⟨c, h⟩
    · exact ⟨(s.lane L).counters, by simp [h, hu, hf]⟩
    · exact ⟨_, by rw [h, State.count_lane, hu, Lane.count, if_pos rfl, hf]⟩

theorem State.closeSpan_store (s : State) (L : LaneId) (sp : Span) : (s.closeSpan L sp).store = s.store := by
  cases hf : sp.form with
  | unlisted => simp [State.closeSpan_unlisted hf, State.setSpan]
  | listed => rcases s.closeSpan_listed hf L with h | ⟨c, h⟩ <;> simp [h, State.waitingSpan, State.setSpan]

theorem State.endSpan_lane (s : State) (L : LaneId) (sp : Span) : (s.endSpan L sp 0).lane L = { s.lane L with
    span := none
    list := if sp.form = .listed then updateRecord sp.start Record.endedAtZero (s.lane L).list
      else (s.lane L).list } := by
  unfold State.endSpan
  cases sp.form
  · simp [State.setSpan, State.setList]
    rfl
  · simp [State.setSpan, State.writeUnlisted]

theorem State.endSpan_store (s : State) (L : LaneId) (sp : Span) (x : Int) : (s.endSpan L sp x).store =
    if sp.form = .listed then s.store else (s.writeUnlisted L sp.start (sp.last + 1 - sp.start) x).store := by
  unfold State.endSpan
  cases sp.form
  · simp [State.setSpan]
  · simp [State.setSpan]

theorem updateRecord_of_findRecord_none {st : Nat} {l : List Record} (h : findRecord st l = none)
    (f : Record → Record) : updateRecord st f l = l := by
  unfold updateRecord
  rw [findRecord, List.find?_eq_none] at h
  refine (List.map_congr_left fun r hr => ?_).trans (List.map_id l)
  have := h r hr
  rw [if_neg (by simpa using this)]
  rfl

theorem State.closePiece_none {s : State} {L : LaneId} (h : (s.lane L).piece = none) (x : Int) :
    s.closePiece L x = s := by
  simp only [State.closePiece, h]

theorem State.closePiece_unlisted {s : State} {L : LaneId} {st len : Nat}
    (h : (s.lane L).piece = some (.unlisted st len)) (x : Int) :
    s.closePiece L x = (s.writeUnlisted L st len x).setPiece L none := by
  simp only [State.closePiece, h]

theorem State.closePiece_lost {s : State} {L : LaneId} {st : Nat} (h : (s.lane L).piece = some (.listed st))
    (hr : findRecord st (s.lane L).list = none) (x : Int) : s.closePiece L x = s.setPiece L none := by
  simp only [State.closePiece, h, hr]

theorem State.closePiece_listed {s : State} {L : LaneId} {st : Nat} {r : Record}
    (h : (s.lane L).piece = some (.listed st)) (hr : findRecord st (s.lane L).list = some r) (x : Int) :
    s.closePiece L x = ((s.setList L (updateRecord st (fun r => { r with state := .live, after := some x })
      (s.lane L).list)).setPiece L none).recordTouched L r.start r.last := by
  simp only [State.closePiece, h, hr]

theorem State.closePiece_lane (s : State) (L : LaneId) : (s.closePiece L 0).lane L = { s.lane L with
    piece := none
    runEnded := if (s.lane L).piece = none then (s.lane L).runEnded else false
    list := match (s.lane L).piece with
      | some (.listed st) => updateRecord st Record.endedAtZero (s.lane L).list
      | some (.unlisted _ _) => (s.lane L).list
      | none => (s.lane L).list } := by
  cases hp : (s.lane L).piece with
  | none =>
    have hl : s.lane L = { s.lane L with piece := none } := by rw [← hp]
    rw [State.closePiece_none hp]
    exact hl
  | some p =>
    cases p with
    | unlisted st len => simp [State.closePiece_unlisted hp, State.setPiece, State.writeUnlisted]
    | listed st =>
      dsimp only
      cases hr : findRecord st (s.lane L).list with
      | none => simp [State.closePiece_lost hp hr, State.setPiece, updateRecord_of_findRecord_none hr]
      | some r =>
        simp [State.closePiece_listed hp hr, State.setPiece, State.setList]
        rfl

theorem State.closePiece_store (s : State) (L : LaneId) (x : Int) : (s.closePiece L x).store =
    match (s.lane L).piece with
    | some (.unlisted st len) => (s.writeUnlisted L st len x).store
    | some (.listed _) => s.store
    | none => s.store := by
  cases hp : (s.lane L).piece with
  | none => rw [State.closePiece_none hp]
  | some p =>
    cases p with
    | unlisted st len => simp [State.closePiece_unlisted hp, State.setPiece]
    | listed st =>
      cases hr : findRecord st (s.lane L).list with
      | none => simp [State.closePiece_lost hp hr, State.setPiece]
      | some r => simp [State.closePiece_listed hp hr, State.setPiece]

/-- The write of an unlisted span looks at the lane's geometry, the store and the event's number. -/
theorem State.writeUnlisted_store_congr {s t : State} {L : LaneId} (hs : t.store = s.store) (he : t.events = s.events)
    (hl : (t.lane L).start = (s.lane L).start ∧ (t.lane L).fill = (s.lane L).fill ∧
      (t.lane L).ring = (s.lane L).ring) (st len : Nat) (x : Int) :
    (t.writeUnlisted L st len x).store = (s.writeUnlisted L st len x).store := by
  obtain ⟨h1, h2, h3⟩ := hl
  have hcell : ∀ pos, (t.lane L).cell pos = (s.lane L).cell pos := fun pos => by
    simp only [Lane.cell, Lane.slotOf, Lane.entryOf, Lane.ord, Lane.ringSize, h1, h3]
  have hanchor : ∀ pos, t.anchorAt L pos = s.anchorAt L pos := fun pos => by
    simp only [State.anchorAt, State.missingAt, State.rawAt, hcell, hs, he, h1, h2, Lane.ringSize, h3]
    rfl
  simp only [State.writeUnlisted, State.setStore_store, State.anchorBefore, hcell, hanchor, hs]

/-! ### The finishing, step by step -/

/-- The last position of the span as the finishing closes it (R46). -/
def Lane.spanEnd (l : Lane) (sp : Span) : Nat := if sp.phase = .growing then min sp.last (l.fill - 1) else sp.last

/-- What the finishing does to the record of a LISTED span: a GROWING span's record ends with it and is closed, and
the after-anchor is 0. -/
def Lane.endSpanRecord (l : Lane) (sp : Span) (r : Record) : Record :=
  (if sp.phase = .growing then
    Record.burstBeyond sp.lmax { r with length := l.spanEnd sp + 1 - sp.start } else r).endedAtZero

/-- A record after the finishing's close of the span. -/
def Lane.spanFinished (l : Lane) (r : Record) : Record :=
  match l.span with
  | some sp => if sp.form = .listed ∧ r.start = sp.start then l.endSpanRecord sp r else r
  | none => r

/-- A record after the finishing's close of the current piece. -/
def Lane.pieceFinished (l : Lane) (r : Record) : Record :=
  match l.piece with
  | some (.listed st) => if r.start = st then r.endedAtZero else r
  | some (.unlisted _ _) => r
  | none => r

theorem Record.burstBeyond_start (r : Record) (n : Nat) : (r.burstBeyond n).start = r.start := by
  unfold Record.burstBeyond
  split <;> rfl

theorem Lane.spanFinished_start (l : Lane) (r : Record) : (l.spanFinished r).start = r.start := by
  unfold Lane.spanFinished
  split
  · split
    · unfold Lane.endSpanRecord
      split
      · exact Record.burstBeyond_start _ _
      · rfl
    · rfl
  · rfl

/-- The finishing's close of a GROWING span. -/
def State.finishGrowing (s : State) (L : LaneId) : State :=
  match (s.lane L).span with
  | some sp =>
    if sp.phase = .growing then
      (if sp.form = .listed then s.setList L (updateRecord sp.start
        (fun r => { r with length := (s.lane L).spanEnd sp + 1 - sp.start }) (s.lane L).list) else s).closeSpan L
        { sp with last := (s.lane L).spanEnd sp }
    else s
  | none => s

/-- The finishing's end of the span. -/
def State.finishSpan (s : State) (L : LaneId) : State :=
  match ((s.finishGrowing L).lane L).span with
  | some sp => (s.finishGrowing L).endSpan L sp 0
  | none => s.finishGrowing L

/-- The finishing's anchors: every record that takes one is a changed record. -/
def State.finishRecords (s : State) (L : LaneId) : State :=
  ((s.lane L).list.filter fun r => r.finish != r).foldl (fun t r => t.recordTouched L r.start r.last)
    (s.setList L ((s.lane L).list.map Record.finish))

theorem State.finishAnalysis_eq (s : State) (L : LaneId) :
    s.finishAnalysis L = (((s.finishSpan L).closePiece L 0).finishRecords L).modLane L
      fun l => { l.blockEnd (l.fill - 1) with finished := true } := by
  have hgrow : s.finishGrowing L = (match (s.lane L).span with
      | some sp =>
        if sp.phase = .growing then
          let sp1 := { sp with last := min sp.last ((s.lane L).fill - 1) }
          let rs := updateRecord sp.start (fun r => { r with length := sp1.last + 1 - sp.start }) (s.lane L).list
          (if sp.form = .listed then s.setList L rs else s).closeSpan L sp1
        else s
      | none => s) := by
    unfold State.finishGrowing
    cases (s.lane L).span with
    | none => rfl
    | some sp =>
      dsimp only
      split
      · rename_i hg
        simp only [Lane.spanEnd, hg, if_true]
      · rfl
  unfold State.finishAnalysis State.finishRecords State.finishSpan
  rw [hgrow] <;> rfl

theorem updateRecord_updateRecord (st : Nat) (f : Record → Record) {g : Record → Record}
    (hg : ∀ r, (g r).start = r.start) (l : List Record) :
    updateRecord st f (updateRecord st g l) = updateRecord st (f ∘ g) l := by
  simp only [updateRecord, List.map_map]
  refine List.map_congr_left fun r _ => ?_
  by_cases h : r.start = st
  · simp [h, hg]
  · simp [h]

/-- The lane after the finishing's close of the span. -/
theorem State.finishSpan_lane (s : State) (L : LaneId) : ∃ c, (s.finishSpan L).lane L = { s.lane L with
    span := none
    list := (s.lane L).list.map (s.lane L).spanFinished
    counters := c } := by
  unfold State.finishSpan State.finishGrowing Lane.spanFinished
  cases hsp : (s.lane L).span with
  | none =>
    dsimp only
    rw [hsp]
    dsimp only
    rw [List.map_id' (s.lane L).list, ← hsp]
    exact ⟨_, rfl⟩
  | some sp =>
    dsimp only
    by_cases hg : sp.phase = .growing
    · rw [if_pos hg]
      generalize hb : (if sp.form = .listed then _ else s : State) = base
      obtain ⟨c, hc⟩ := base.closeSpan_lane L { sp with last := (s.lane L).spanEnd sp }
      simp only [State.endSpan_lane, hc]
      refine ⟨c, ?_⟩
      cases hf : sp.form with
      | unlisted =>
        rw [← hb, hf, if_neg (by decide)]
        simp
      | listed =>
        rw [← hb, hf, if_pos rfl]
        simp only [if_true, State.setList, State.lane_modLane_same, true_and]
        rw [updateRecord_updateRecord _ _ (fun r => Record.burstBeyond_start r _),
          updateRecord_updateRecord _ _ (by exact fun _ => rfl), updateRecord]
        simp only [Lane.endSpanRecord, hg, if_true, Function.comp_apply]
    · simp only [hg, if_false, hsp, State.endSpan_lane, Lane.endSpanRecord]
      refine ⟨(s.lane L).counters, ?_⟩
      cases sp.form <;> simp [updateRecord]

/-- The lane after the finishing. -/
theorem State.finishAnalysis_lane (s : State) (L : LaneId) : ∃ c, (s.finishAnalysis L).lane L = { s.lane L with
    finished := true
    span := none
    piece := none
    runEnded := if (s.lane L).piece = none then (s.lane L).runEnded else false
    list := (s.lane L).list.map fun r => ((s.lane L).pieceFinished ((s.lane L).spanFinished r)).finish
    counters := c
    blocks := ((s.lane L).blockEnd ((s.lane L).fill - 1)).blocks } := by
  obtain ⟨c, hc⟩ := s.finishSpan_lane L
  refine ⟨c, ?_⟩
  have hlist : (((s.finishSpan L).closePiece L 0).lane L).list =
      (s.lane L).list.map fun r => (s.lane L).pieceFinished ((s.lane L).spanFinished r) := by
    rw [State.closePiece_lane, hc]
    unfold Lane.pieceFinished
    cases (s.lane L).piece with
    | none => rfl
    | some p => cases p <;> simp [updateRecord]
  obtain ⟨-, hlane, -⟩ := State.foldl_recordTouched L
    ((((s.finishSpan L).closePiece L 0).lane L).list.filter fun r => r.finish != r)
    (((s.finishSpan L).closePiece L 0).setList L ((((s.finishSpan L).closePiece L 0).lane L).list.map Record.finish))
  have hbefore : (((s.finishSpan L).closePiece L 0).finishRecords L).lane L = { s.lane L with
      span := none
      piece := none
      runEnded := if (s.lane L).piece = none then (s.lane L).runEnded else false
      list := (s.lane L).list.map fun r => ((s.lane L).pieceFinished ((s.lane L).spanFinished r)).finish
      counters := c } := by
    rw [State.finishRecords, hlane, State.setList, State.lane_modLane_same, hlist, State.closePiece_lane, hc,
      List.map_map]
    rfl
  have hring : (s.lane L).SameRing ((((s.finishSpan L).closePiece L 0).finishRecords L).lane L) := by
    rw [hbefore]
    exact ⟨rfl, rfl, rfl, rfl, rfl, rfl⟩
  rw [State.finishAnalysis_eq, State.lane_modLane_same, hring.blockEnd_finished, hring.fill, hbefore]

theorem State.finishGrowing_closes (s : State) (L : LaneId) : s.Closes L (s.finishGrowing L) := by
  unfold State.finishGrowing
  split
  · split
    · split
      · exact State.Closes.closeSpan ((State.Closes.refl L s).modLane _) _
      · exact (State.Closes.refl L s).closeSpan _
    · exact .refl L s
  · exact .refl L s

theorem State.finishSpan_closes (s : State) (L : LaneId) : s.Closes L (s.finishSpan L) := by
  unfold State.finishSpan
  split
  · exact (s.finishGrowing_closes L).endSpan _ _
  · exact s.finishGrowing_closes L

/-- What the finishing can reach beside its lane. -/
theorem State.finishAnalysis_closes (s : State) (L : LaneId) : s.Closes L (s.finishAnalysis L) := by
  rw [State.finishAnalysis_eq]
  exact (((s.finishSpan_closes L).closePiece 0).trans (((State.Closes.refl L _).modLane _).trans
    (State.foldl_recordTouched L _ _).1)).modLane _

/-! ### The store after the finishing -/

theorem State.finishGrowing_store (s : State) (L : LaneId) : (s.finishGrowing L).store = s.store := by
  unfold State.finishGrowing
  split
  · split
    · rw [State.closeSpan_store]
      split
      · rfl
      · rfl
    · rfl
  · rfl

/-- The store after the finishing: an unlisted span, and an unlisted piece, is written. -/
theorem State.finishAnalysis_store (s : State) (L : LaneId) : (s.finishAnalysis L).store =
    match (s.lane L).piece with
    | some (.unlisted st len) => ((s.finishSpan L).writeUnlisted L st len 0).store
    | some (.listed _) => (s.finishSpan L).store
    | none => (s.finishSpan L).store := by
  obtain ⟨c, hc⟩ := s.finishSpan_lane L
  obtain ⟨-, -, hstore⟩ := State.foldl_recordTouched L
    ((((s.finishSpan L).closePiece L 0).lane L).list.filter fun r => r.finish != r)
    (((s.finishSpan L).closePiece L 0).setList L ((((s.finishSpan L).closePiece L 0).lane L).list.map Record.finish))
  rw [State.finishAnalysis_eq, State.modLane_store, State.finishRecords, hstore, State.setList_store,
    State.closePiece_store, hc]

theorem State.finishSpan_store (s : State) (L : LaneId) : (s.finishSpan L).store =
    match (s.lane L).span with
    | some sp => if sp.form = .listed then s.store
      else (s.writeUnlisted L sp.start ((s.lane L).spanEnd sp + 1 - sp.start) 0).store
    | none => s.store := by
  have hgrown := s.finishGrowing_store L
  unfold State.finishSpan
  cases hsp : (s.lane L).span with
  | none =>
    have hg : s.finishGrowing L = s := by
      unfold State.finishGrowing
      simp only [hsp]
    simp only [hg, hsp]
  | some sp =>
    obtain ⟨sp', hsp', hstart, hlast, hform, hring⟩ : ∃ sp' : Span, ((s.finishGrowing L).lane L).span = some sp' ∧
        sp'.start = sp.start ∧ sp'.last = (s.lane L).spanEnd sp ∧ sp'.form = sp.form ∧
        (((s.finishGrowing L).lane L).start = (s.lane L).start ∧
          ((s.finishGrowing L).lane L).fill = (s.lane L).fill ∧
          ((s.finishGrowing L).lane L).ring = (s.lane L).ring) ∧ True := by
      unfold State.finishGrowing
      simp only [hsp]
      by_cases hg : sp.phase = .growing
      · rw [if_pos hg]
        generalize hb : (if sp.form = .listed then _ else s : State) = base
        have hbase : (base.lane L).start = (s.lane L).start ∧ (base.lane L).fill = (s.lane L).fill ∧
            (base.lane L).ring = (s.lane L).ring := by
          rw [← hb]
          split <;> simp [State.setList]
        obtain ⟨c, hc⟩ := base.closeSpan_lane L { sp with last := (s.lane L).spanEnd sp }
        rw [hc]
        exact ⟨_, rfl, rfl, rfl, rfl, hbase, trivial⟩
      · rw [if_neg hg]
        exact ⟨sp, hsp, rfl, by simp [Lane.spanEnd, hg], rfl, ⟨rfl, rfl, rfl⟩, trivial⟩
    have hev : (s.finishGrowing L).events = s.events := (s.finishGrowing_closes L).rest.2.2.2.2
    simp only [hsp', State.endSpan_store, hform, hgrown, hstart, hlast]
    split
    · rfl
    · exact State.writeUnlisted_store_congr hgrown hev hring.1 _ _ _

end Sys2Proof.Machine

/-! PROOF. The settling of a lane, a step at a time; DRAIN_ANALYSIS_FINISH record by record, and FINAL_BLOCK
(R6, R46, R63). The statement O47. -/

namespace Sys2Proof.Machine
open Sys2Proof

/-! ### The settling, a step at a time -/

/-- The landing buffer is placed, if that is due. -/
def State.landIfDue (t : State) (L : LaneId) : State := t.when (t.lane L).landingDue (·.placeLanding L)
/-- The final block is fixed, if that is due. -/
def State.fixIfDue (t : State) (L : LaneId) : State := t.when (t.lane L).finalDue (·.modLane L Lane.fixFinal)
/-- The analysis is finished, if that is due. -/
def State.finishIfDue (t : State) (L : LaneId) : State := t.when (t.lane L).finishDue (·.finishAnalysis L)
/-- GO is sent, if that is due. -/
def State.goIfDue (t : State) (L : LaneId) : State := t.when (t.lane L).goDue (·.sendGo L)
/-- The RETIRING copy is discarded, if that is due. -/
def State.discardIfDue (t : State) (L : LaneId) : State := t.when (t.discardDue L) (·.discardRetiring L)
/-- The drain is completed, if that is due. -/
def State.drainIfDue (t : State) (L : LaneId) : State := t.when (t.lane L).drainDone (·.completeDrain L)

theorem State.settleLane_eq (s : State) (L : LaneId) : s.settleLane L =
    (((((((s.openSlot L).landIfDue L).fixIfDue L).finishIfDue L).goIfDue L).discardIfDue L).drainIfDue L).grant := rfl

section
variable {t : State} {L : LaneId}

theorem State.landIfDue_of_not (h : (t.lane L).landingDue = false) : t.landIfDue L = t := by
  rw [State.landIfDue, h]
  rfl

theorem State.fixIfDue_of_not (h : (t.lane L).finalDue = false) : t.fixIfDue L = t := by
  rw [State.fixIfDue, h]
  rfl

theorem State.finishIfDue_of_not (h : (t.lane L).finishDue = false) : t.finishIfDue L = t := by
  rw [State.finishIfDue, h]
  rfl

theorem State.goIfDue_of_not (h : (t.lane L).goDue = false) : t.goIfDue L = t := by
  rw [State.goIfDue, h]
  rfl

theorem State.discardIfDue_of_not (h : t.discardDue L = false) : t.discardIfDue L = t := by
  rw [State.discardIfDue, h]
  rfl

theorem State.drainIfDue_of_not (h : (t.lane L).drainDone = false) : t.drainIfDue L = t := by
  rw [State.drainIfDue, h]
  rfl

/-- The discard takes the RETIRING copy and nothing else. -/
theorem State.discardIfDue_lane (t : State) (L : LaneId) :
    (t.discardIfDue L).lane L = { t.lane L with retiring := ((t.discardIfDue L).lane L).retiring } := by
  unfold State.discardIfDue State.when
  split
  · simp [State.discardRetiring]
  · rfl

theorem State.discardDue_none (h : (t.lane L).retiring = none) : t.discardDue L = false := by
  rw [State.discardDue, h]

end

/-! ### One record after the finishing -/

theorem Lane.spanFinished_of_listed {l : Lane} {sp : Span} {r : Record} (h : l.span = some sp) (hf : sp.form = .listed)
    (hs : sp.start = r.start) : l.spanFinished r = l.endSpanRecord sp r := by
  simp only [Lane.spanFinished, h, hf, hs, and_self, if_true]

theorem Lane.spanFinished_of_none {l : Lane} {r : Record}
    (h : ¬∃ sp, l.span = some sp ∧ sp.form = .listed ∧ sp.start = r.start) : l.spanFinished r = r := by
  unfold Lane.spanFinished
  split
  · rename_i sp hsp
    exact if_neg fun hc => h ⟨sp, hsp, hc.1, hc.2.symm⟩
  · rfl

theorem Lane.pieceFinished_eq (l : Lane) (r : Record) :
    l.pieceFinished r = if l.piece = some (.listed r.start) then r.endedAtZero else r := by
  unfold Lane.pieceFinished
  cases l.piece with
  | none => simp
  | some p => cases p <;> simp [eq_comm]

theorem Record.burstBeyond_kind (r : Record) (n : Nat) :
    (r.burstBeyond n).kind = if r.kind = .click ∧ n < r.length then .burst else r.kind := by
  unfold Record.burstBeyond
  split <;> rfl

/-- The closing of a span's record changes length, kind, state and after-anchor only. -/
theorem Lane.endSpanRecord_eq (l : Lane) (sp : Span) (r : Record) : l.endSpanRecord sp r = { r with
    length := (l.endSpanRecord sp r).length
    kind := (l.endSpanRecord sp r).kind
    state := .live
    after := some 0 } := by
  unfold Lane.endSpanRecord Record.burstBeyond Record.endedAtZero
  split
  · split <;> rfl
  · rfl

theorem Lane.endSpanRecord_growing {l : Lane} {sp : Span} (h : sp.phase = .growing) (r : Record) :
    (l.endSpanRecord sp r).length = l.spanEnd sp + 1 - sp.start ∧
    (l.endSpanRecord sp r).kind =
      if r.kind = .click ∧ sp.lmax < l.spanEnd sp + 1 - sp.start then .burst else r.kind := by
  unfold Lane.endSpanRecord Record.burstBeyond Record.endedAtZero
  rw [if_pos h]
  constructor
  · split <;> rfl
  · split <;> simp_all

theorem Lane.endSpanRecord_waiting {l : Lane} {sp : Span} (h : sp.phase ≠ .growing) (r : Record) :
    l.endSpanRecord sp r = r.endedAtZero := by
  rw [Lane.endSpanRecord, if_neg h]

/-- A record after the finishing, by whether the span, or the current piece, is its own. -/
theorem Lane.finishedRecord (l : Lane) (r : Record) :
    let spans := fun sp => l.span = some sp ∧ sp.form = .listed ∧ sp.start = r.start
    let owned := (∃ sp, spans sp) ∨ l.piece = some (.listed r.start)
    let r' := (l.pieceFinished (l.spanFinished r)).finish
    r'.start = r.start ∧ r'.origin = r.origin ∧ r'.disp = r.disp ∧ r'.ratio = r.ratio ∧
    r'.before = some (r.before.getD 0) ∧
    (owned → r'.after = some 0 ∧ r'.state = .live) ∧
    (¬ owned → r'.after = some (r.after.getD 0) ∧ r'.state = (if r.state = .opened then .live else r.state)) ∧
    (∀ sp, spans sp → sp.phase = .growing → r'.length = l.spanEnd sp + 1 - sp.start ∧
      r'.kind = if r.kind = .click ∧ sp.lmax < l.spanEnd sp + 1 - sp.start then .burst else r.kind) ∧
    ((∀ sp, spans sp → sp.phase ≠ .growing) → r'.length = r.length ∧ r'.kind = r.kind) := by
  intro spans owned r'
  have hpiece : l.pieceFinished (l.spanFinished r) =
      if l.piece = some (.listed r.start) then (l.spanFinished r).endedAtZero else l.spanFinished r := by
    rw [Lane.pieceFinished_eq, Lane.spanFinished_start]
  by_cases hspan : ∃ sp, spans sp
  · obtain ⟨sp, hsp, hform, hstart⟩ := hspan
    have heq := l.endSpanRecord_eq sp r
    have hr' : r' = { r with
        length := (l.endSpanRecord sp r).length
        kind := (l.endSpanRecord sp r).kind
        state := .live
        before := some (r.before.getD 0)
        after := some 0 } := by
      change (l.pieceFinished (l.spanFinished r)).finish = _
      rw [hpiece, Lane.spanFinished_of_listed hsp hform hstart, heq]
      split <;> rfl
    have hone : ∀ sp', spans sp' → sp' = sp := fun sp' h => Option.some.inj (h.1.symm.trans hsp)
    rw [hr']
    refine ⟨rfl, rfl, rfl, rfl, rfl, fun _ => ⟨rfl, rfl⟩, fun h => absurd (.inl ⟨sp, hsp, hform, hstart⟩) h,
      fun sp' h hg => ?_, fun h => ?_⟩
    · obtain rfl := hone sp' h
      exact Lane.endSpanRecord_growing hg r
    · simp only [Lane.endSpanRecord_waiting (h sp ⟨hsp, hform, hstart⟩)]
      exact ⟨rfl, rfl⟩
  · have hr' : r' = (if l.piece = some (.listed r.start) then r.endedAtZero else r).finish := by
      change (l.pieceFinished (l.spanFinished r)).finish = _
      rw [hpiece, Lane.spanFinished_of_none hspan]
    rw [hr']
    by_cases hp : l.piece = some (.listed r.start)
    · rw [if_pos hp]
      exact ⟨rfl, rfl, rfl, rfl, rfl, fun _ => ⟨rfl, rfl⟩, fun h => absurd (.inr hp) h,
        fun sp h => absurd ⟨sp, h⟩ hspan, fun _ => ⟨rfl, rfl⟩⟩
    · rw [if_neg hp]
      exact ⟨rfl, rfl, rfl, rfl, rfl, fun h => absurd h (not_or.mpr ⟨hspan, hp⟩), fun _ => ⟨rfl, rfl⟩,
        fun sp h => absurd ⟨sp, h⟩ hspan, fun _ => ⟨rfl, rfl⟩⟩

/-! ### DRAIN_ANALYSIS_FINISH -/

theorem Lane.finishDue_iff (l : Lane) : l.finishDue = true ↔
    l.state = .draining ∧ l.final ≠ none ∧ l.analysis = l.fill ∧ l.finished = false := by
  rw [← Option.isSome_iff_ne_none]
  simp [Lane.finishDue, and_assoc]

theorem exec_drainAnalysisFinish {s : State} {L : LaneId} (h : (s.lane L).finishDue = true) :
    exec (.drainAnalysisFinish L) s = .next (s.event.finishAnalysis L).grant :=
  State.takePlace_due h fun t => (t.finishAnalysis L).grant

/-- The store after the finishing, by what is unlisted. -/
theorem State.finishAnalysis_store_of_listed {s : State} {L : LaneId}
    (hs : ∀ sp, (s.lane L).span = some sp → sp.form = .listed)
    (hp : ∀ st len, (s.lane L).piece ≠ some (.unlisted st len)) : (s.finishAnalysis L).store = s.store := by
  have hspan : (s.finishSpan L).store = s.store := by
    rw [State.finishSpan_store]
    split
    · exact if_pos (hs _ ‹_›)
    · rfl
  rw [State.finishAnalysis_store]
  split
  · exact absurd ‹_› (hp _ _)
  · exact hspan
  · exact hspan

theorem State.finishAnalysis_store_of_span {s : State} {L : LaneId} {sp : Span}
    (hs : (s.lane L).span = some sp) (hf : sp.form = .unlisted)
    (hp : ∀ st len, (s.lane L).piece ≠ some (.unlisted st len)) : (s.finishAnalysis L).store =
      (s.writeUnlisted L sp.start ((s.lane L).spanEnd sp + 1 - sp.start) 0).store := by
  have hspan : (s.finishSpan L).store =
      (s.writeUnlisted L sp.start ((s.lane L).spanEnd sp + 1 - sp.start) 0).store := by
    rw [State.finishSpan_store, hs]
    exact if_neg (by rw [hf]; decide)
  rw [State.finishAnalysis_store]
  split
  · exact absurd ‹_› (hp _ _)
  · exact hspan
  · exact hspan

theorem State.finishAnalysis_store_of_piece {s : State} {L : LaneId} {st len : Nat}
    (hp : (s.lane L).piece = some (.unlisted st len)) (hs : ∀ sp, (s.lane L).span = some sp → sp.form = .listed) :
    (s.finishAnalysis L).store = (s.writeUnlisted L st len 0).store := by
  have hspan : (s.finishSpan L).store = s.store := by
    rw [State.finishSpan_store]
    split
    · exact if_pos (hs _ ‹_›)
    · rfl
  obtain ⟨c, hc⟩ := s.finishSpan_lane L
  rw [State.finishAnalysis_store, hp]
  exact State.writeUnlisted_store_congr hspan (s.finishSpan_closes L).rest.2.2.2.2 (by simp [hc]) _ _ _

/-- The finishing, as R46 and R63 state it. -/
theorem drainAnalysisFinish_effect (s : State) (L : LaneId) :
    let l := s.lane L
    let before : State := { s with events := s.events + 1 }
    let spans := fun (r : Record) (sp : Span) => l.span = some sp ∧ sp.form = .listed ∧ sp.start = r.start
    let owned := fun (r : Record) => (∃ sp, spans r sp) ∨ l.piece = some (.listed r.start)
    let last := fun (sp : Span) => if sp.phase = .growing then min sp.last (l.fill - 1) else sp.last
    l.state = .draining → l.final ≠ none → l.analysis = l.fill → l.finished = false →
    ∃ t : State, exec (.drainAnalysisFinish L) s = .next t.grant ∧
      t.lane L = { l with
        finished := true
        span := none
        piece := none
        runEnded := if l.piece = none then l.runEnded else false
        list := (t.lane L).list
        counters := (t.lane L).counters
        blocks := (l.blockEnd (l.fill - 1)).blocks } ∧
      (t.lane L).list.length = l.list.length ∧
      (∀ (i : Nat) (r : Record), l.list[i]? = some r → ∃ r' : Record, (t.lane L).list[i]? = some r' ∧
        r'.start = r.start ∧ r'.origin = r.origin ∧ r'.disp = r.disp ∧ r'.ratio = r.ratio ∧
        r'.before = some (r.before.getD 0) ∧
        (owned r → r'.after = some 0 ∧ r'.state = .live) ∧
        (¬ owned r → r'.after = some (r.after.getD 0) ∧ r'.state = (if r.state = .opened then .live else r.state)) ∧
        (∀ sp, spans r sp → sp.phase = .growing →
          r'.length = last sp + 1 - sp.start ∧
          r'.kind = if r.kind = .click ∧ sp.lmax < last sp + 1 - sp.start then .burst else r.kind) ∧
        ((∀ sp, spans r sp → sp.phase ≠ .growing) → r'.length = r.length ∧ r'.kind = r.kind)) ∧
      ((∀ sp, l.span = some sp → sp.form = .listed) → (∀ start len, l.piece ≠ some (.unlisted start len)) →
        t.store = s.store) ∧
      (∀ sp, l.span = some sp → sp.form = .unlisted → (∀ start len, l.piece ≠ some (.unlisted start len)) →
        t.store = (before.writeUnlisted L sp.start (last sp + 1 - sp.start) 0).store) ∧
      (∀ start len, l.piece = some (.unlisted start len) → (∀ sp, l.span = some sp → sp.form = .listed) →
        t.store = (before.writeUnlisted L start len 0).store) ∧
      (∀ M, M ≠ L → t.lane M = s.lane M) ∧ t.engine = s.engine ∧ t.lines = s.lines ∧ t.library = s.library ∧
      t.tick = s.tick ∧ ∀ q, t.port q = { s.port q with reservation := (t.port q).reservation } := by
  intro l before spans owned last hdrain hfinal hanal hfin
  obtain ⟨c, hlane⟩ := State.finishAnalysis_lane s.event L
  have hcloses := State.finishAnalysis_closes s.event L
  obtain ⟨heng, htick, hlines, hlib, -⟩ := hcloses.rest
  have hlist : ((s.event.finishAnalysis L).lane L).list =
      l.list.map fun r => (l.pieceFinished (l.spanFinished r)).finish := by
    rw [hlane]
    rfl
  have hexec : exec (.drainAnalysisFinish L) s = .next (s.event.finishAnalysis L).grant :=
    exec_drainAnalysisFinish ((Lane.finishDue_iff _).mpr ⟨hdrain, hfinal, hanal, hfin⟩)
  have hall : (∀ sp, l.span = some sp → sp.form = .listed) → (∀ start len, l.piece ≠ some (.unlisted start len)) →
      (s.event.finishAnalysis L).store = s.store := State.finishAnalysis_store_of_listed (s := s.event)
  have hspan : ∀ sp, l.span = some sp → sp.form = .unlisted → (∀ start len, l.piece ≠ some (.unlisted start len)) →
      (s.event.finishAnalysis L).store = (before.writeUnlisted L sp.start (last sp + 1 - sp.start) 0).store :=
    fun sp => State.finishAnalysis_store_of_span (s := s.event)
  have hpiece : ∀ start len, l.piece = some (.unlisted start len) → (∀ sp, l.span = some sp → sp.form = .listed) →
      (s.event.finishAnalysis L).store = (before.writeUnlisted L start len 0).store :=
    fun st len => State.finishAnalysis_store_of_piece (s := s.event)
  have hlen : ((s.event.finishAnalysis L).lane L).list.length = l.list.length := by rw [hlist, List.length_map]
  have hself : (s.event.finishAnalysis L).lane L = { l with
      finished := true
      span := none
      piece := none
      runEnded := if l.piece = none then l.runEnded else false
      list := ((s.event.finishAnalysis L).lane L).list
      counters := ((s.event.finishAnalysis L).lane L).counters
      blocks := (l.blockEnd (l.fill - 1)).blocks } := by
    rw [hlane]
    rfl
  refine ⟨s.event.finishAnalysis L, hexec, hself, hlen, ?_, hall, hspan, hpiece, hcloses.other, heng, hlines, hlib,
    htick, hcloses.port⟩
  intro i r hi
  refine ⟨_, (congrArg (·[i]?) hlist).trans ((List.getElem?_map ..).trans (congrArg _ hi)), ?_⟩
  exact l.finishedRecord r

/-! ### FINAL_BLOCK -/

/-- The lane with its final block fixed, in the terms of R6. -/
theorem Lane.fixFinal_eq {l : Lane} (h : l.start < l.fill) : l.fixFinal = { l with
    final := some (l.start + 256 * ((l.fill - 1 - l.start) / 256))
    blocks := if (l.fill - l.start) % 256 = 0 ∧ l.inRing (l.ord l.fill) = true ∧
        (l.block (l.ord l.fill)).state = .filling then (l.setBlock (l.ord l.fill) {}).blocks else l.blocks } := by
  unfold Lane.fixFinal
  by_cases hb : (l.fill - l.start) % 256 = 0
  · have hprev : l.firstOf (l.ord l.fill - 1) = l.start + 256 * ((l.fill - 1 - l.start) / 256) := by
      simp only [Lane.firstOf, Lane.ord, Config.blockLen]
      omega
    refine (if_pos hb).trans ?_
    rw [hprev]
    by_cases hf : l.inRing (l.ord l.fill) = true ∧ (l.block (l.ord l.fill)).state = .filling
    · rw [if_pos (by simp [hf]), if_pos ⟨hb, hf⟩]
      rfl
    · rw [if_neg (by simpa using hf), if_neg fun h => hf h.2]
  · have hcur : l.firstOf (l.ord l.fill) = l.start + 256 * ((l.fill - 1 - l.start) / 256) := by
      simp only [Lane.firstOf, Lane.ord, Config.blockLen]
      omega
    refine (if_neg hb).trans ?_
    rw [hcur, if_neg fun h => hb h.1]

theorem Lane.block_setBlock_empty (l : Lane) (j : Nat) : (l.setBlock j {}).block j = {} := by
  simp only [Lane.block, Lane.setBlock, Lane.entryOf, Lane.ringSize, List.getD_eq_getElem?_getD, List.getElem?_set]
  split
  · split <;> rfl
  · contradiction

theorem Lane.block_congr {l m : Lane} (hr : m.ring = l.ring) (hb : m.blocks = l.blocks) (j : Nat) :
    m.block j = l.block j := by simp only [Lane.block, Lane.entryOf, Lane.ringSize, hr, hb]

theorem Lane.blockEnd_ring (l : Lane) (n : Nat) : (l.blockEnd n).ring = l.ring := by
  unfold Lane.blockEnd
  dsimp only
  split <;> rfl

/-- The end of a block's analysis reaches a FILLING block only. -/
theorem Lane.blockEnd_block {l : Lane} {j : Nat} (h : (l.block j).state ≠ .filling) (n : Nat) :
    (l.blockEnd n).block j = l.block j := by
  unfold Lane.blockEnd
  dsimp only
  split
  · rename_i hn
    have hne : l.entryOf (l.ord n) ≠ l.entryOf j := fun he => h (by rw [Lane.block, ← he]; exact hn.2)
    simp [Lane.block, Lane.setBlock, Lane.entryOf, Lane.ringSize] at hne ⊢
    rw [List.getElem?_set_ne hne]
  · rfl

theorem Lane.finalDue_iff (l : Lane) : l.finalDue = true ↔
    l.state = .draining ∧ l.landing = [] ∧ l.final = none ∧ l.start < l.fill := by
  simp [Lane.finalDue, and_assoc]

theorem exec_finalBlock {s : State} {L : LaneId} (h : (s.lane L).finalDue = true) :
    exec (.finalBlock L) s = .next ((s.event.modLane L Lane.fixFinal).settleLane L) :=
  State.takePlace_due h fun t => (t.modLane L Lane.fixFinal).settleLane L

theorem State.finishIfDue_lane (t : State) (L : LaneId) :
    let l := t.lane L
    let m := (t.finishIfDue L).lane L
    m.state = l.state ∧ m.landing = l.landing ∧ m.final = l.final ∧ m.fill = l.fill ∧ m.release = l.release ∧
    m.retiring = l.retiring ∧ m.ring = l.ring ∧ (m.blocks = l.blocks ∨ m.blocks = (l.blockEnd (l.fill - 1)).blocks) := by
  unfold State.finishIfDue State.when
  split
  · obtain ⟨c, hc⟩ := t.finishAnalysis_lane L
    rw [hc]
    exact ⟨rfl, rfl, rfl, rfl, rfl, rfl, rfl, .inr rfl⟩
  · exact ⟨rfl, rfl, rfl, rfl, rfl, rfl, rfl, .inl rfl⟩

/-- What a DRAINING lane whose final block is fixed, and not yet released, can have due by itself. -/
theorem State.settleLane_final {t : State} {L : LaneId} (hs : (t.lane L).state = .draining)
    (hl : (t.lane L).landing = []) (hf : (t.lane L).final ≠ none) (hr : (t.lane L).release < (t.lane L).fill) :
    t.settleLane L = ((t.finishIfDue L).discardIfDue L).grant := by
  obtain ⟨f, hf⟩ := Option.ne_none_iff_exists'.mp hf
  have hslot : t.openSlot L = t := if_neg (by simp [Lane.fillSlotFree, Lane.mayFill, hf])
  have hland : (t.lane L).landingDue = false := by simp [Lane.landingDue, hl]
  have hfinal : (t.lane L).finalDue = false := by simp [Lane.finalDue, hf]
  obtain ⟨hs', -, -, hfill, hrel, -⟩ := t.finishIfDue_lane L
  have hgo : ((t.finishIfDue L).lane L).goDue = false := by simp [Lane.goDue, hs', hs]
  have hdone : (((t.finishIfDue L).discardIfDue L).lane L).drainDone = false := by
    rw [State.discardIfDue_lane]
    simp [Lane.drainDone, hfill, hrel, hr.ne]
  rw [State.settleLane_eq, hslot, State.landIfDue_of_not hland, State.fixIfDue_of_not hfinal,
    State.goIfDue_of_not hgo, State.drainIfDue_of_not hdone]

/-- FINAL_BLOCK, as R6 states it. -/
theorem finalBlock_effect (s : State) (L : LaneId) :
    let l := s.lane L
    let j := l.ord l.fill
    let boundary := (l.fill - l.start) % 256 = 0
    let fixed : State := s.setLane L { l with
      final := some (l.start + 256 * ((l.fill - 1 - l.start) / 256))
      blocks := if boundary ∧ l.inRing j = true ∧ (l.block j).state = .filling then (l.setBlock j {}).blocks
        else l.blocks }
    l.state = .draining → l.landing = [] → l.final = none → l.start < l.fill → l.release < l.fill →
    (∃ t : State, exec (.finalBlock L) s = .next t.grant ∧ (t.lane L).fill = l.fill ∧ (t.lane L).state = .draining ∧
      (t.lane L).final = some (l.start + 256 * ((l.fill - 1 - l.start) / 256)) ∧
      (boundary → l.inRing j = true → (l.block j).state = .filling → l.blocks.length = l.ring.length →
        (t.lane L).block j = {})) ∧
    (l.retiring = none → ¬(l.analysis = l.fill ∧ l.finished = false) →
      exec (.finalBlock L) s = .next ({ fixed with events := s.events + 1 } : State).grant) ∧
    (l.retiring = none → l.analysis = l.fill → l.finished = false →
      exec (.finalBlock L) s = exec (.drainAnalysisFinish L) fixed) := by
  intro l j boundary fixed hstate hland hfinal hplaced hrel
  have hexec := exec_finalBlock (s := s) ((Lane.finalDue_iff l).mpr ⟨hstate, hland, hfinal, hplaced⟩)
  have hfix : s.event.modLane L Lane.fixFinal = fixed.event := by
    change s.event.setLane L (Lane.fixFinal l) = _
    rw [Lane.fixFinal_eq hplaced]
    rfl
  have hlane : fixed.event.lane L = { l with
      final := some (l.start + 256 * ((l.fill - 1 - l.start) / 256))
      blocks := if boundary ∧ l.inRing j = true ∧ (l.block j).state = .filling then (l.setBlock j {}).blocks
        else l.blocks } := State.lane_setLane_same _ _ _
  have hsettle : fixed.event.settleLane L = ((fixed.event.finishIfDue L).discardIfDue L).grant :=
    State.settleLane_final (by rw [hlane]; exact hstate) (by rw [hlane]; exact hland)
      (by rw [hlane]; exact Option.some_ne_none _) (by rw [hlane]; exact hrel)
  obtain ⟨hs', -, hf', hfill', -, hret', hring', hblocks'⟩ := fixed.event.finishIfDue_lane L
  rw [hexec, hfix, hsettle]
  refine ⟨⟨_, rfl, ?_, ?_, ?_, ?_⟩, fun hret hno => ?_, fun hret hanal hfin => ?_⟩
  · rw [State.discardIfDue_lane]
    exact hfill'.trans (by rw [hlane])
  · rw [State.discardIfDue_lane]
    exact hs'.trans (by rw [hlane]; exact hstate)
  · rw [State.discardIfDue_lane]
    exact hf'.trans (by rw [hlane])
  · intro hb hin hfilling _
    have hempty : (fixed.event.lane L).block j = {} := by
      rw [hlane, if_pos ⟨hb, hin, hfilling⟩]
      exact l.block_setBlock_empty j
    rw [State.discardIfDue_lane]
    change ((fixed.event.finishIfDue L).lane L).block j = {}
    rcases hblocks' with h | h
    · exact (Lane.block_congr hring' h j).trans hempty
    · have hend := Lane.blockEnd_block (l := fixed.event.lane L) (j := j) (by rw [hempty]; decide)
        ((fixed.event.lane L).fill - 1)
      exact (Lane.block_congr (hring'.trans (Lane.blockEnd_ring _ _).symm) h j).trans (hend.trans hempty)
  · rw [State.finishIfDue_of_not, State.discardIfDue_of_not]
    · rfl
    · exact State.discardDue_none (by rw [hlane]; exact hret)
    · rw [Bool.eq_false_iff, ne_eq, Lane.finishDue_iff, hlane]
      exact fun h => hno h.2.2
  · have hdue : (fixed.lane L).finishDue = true := by
      change (fixed.event.lane L).finishDue = true
      rw [Lane.finishDue_iff, hlane]
      exact ⟨hstate, Option.some_ne_none _, hanal, hfin⟩
    rw [exec_drainAnalysisFinish hdue, State.discardIfDue_of_not (State.discardDue_none
      (hret'.trans (by rw [hlane]; exact hret))), State.finishIfDue, State.when]
    exact congrArg _ (congrArg _ (if_pos hdue))

/-- Settles O47: the fixing of the final block, and the finishing record by record. -/
theorem drainFixesTheFinalBlockAndFinishes : Obligations.DrainFixesTheFinalBlockAndFinishes :=
  ⟨finalBlock_effect, drainAnalysisFinish_effect⟩

end Sys2Proof.Machine

/-! PROOF. What a lane does by itself while it has no GO to send and is not drained (`State.Waits`), and LANE DRAIN
(R5). The statement O19. -/

namespace Sys2Proof.Machine
open Sys2Proof

/-! ### A lane that waits -/

/-- From `s` to `t` the part has attended to lane `L`: the lane's state, release point and count of releases stand,
its fill point has not gone back, it is held if it was, and the ports' flow lists have gained no GO. -/
structure State.Waits (L : LaneId) (s t : State) : Prop where
  state : (t.lane L).state = (s.lane L).state
  release : (t.lane L).release = (s.lane L).release
  released : (t.lane L).counters[2] = (s.lane L).counters[2]
  fill : (s.lane L).fill ≤ (t.lane L).fill
  held : (s.lane L).held = true → (t.lane L).held = true
  port : ∀ q, (s.port q).Placed (t.port q)
  rest : t.lines = s.lines ∧ t.library = s.library ∧ t.tick = s.tick

theorem PortRec.Placed.refl (q : PortRec) : q.Placed q := PortRec.Worked.placed rfl

theorem State.Places.waits {L : LaneId} {s t : State} (h : s.Places L t) : s.Waits L t := by
  obtain ⟨hl, hc, hf, hh⟩ := h.lane
  obtain ⟨-, htick, hlines, hlib, -, -⟩ := h.rest
  exact ⟨by rw [hl], by rw [hl], hc, hf, hh, h.port, hlines, hlib, htick⟩

theorem Lane.fixFinal_fields (l : Lane) : l.fixFinal = { l with final := l.fixFinal.final, blocks := l.fixFinal.blocks } := by
  unfold Lane.fixFinal
  dsimp only
  split
  · split <;> rfl
  · rfl

theorem State.openSlot_lane (s : State) (L : LaneId) :
    (s.openSlot L).lane L = { s.lane L with blocks := ((s.openSlot L).lane L).blocks } := by
  unfold State.openSlot
  split
  · rw [State.lane_setLane_same]
    rfl
  · rfl

@[simp] theorem State.openSlot_port (s : State) (L : LaneId) (q : Port) : (s.openSlot L).port q = s.port q := by
  unfold State.openSlot
  split
  · exact State.port_setLane _ _ _ _
  · rfl

namespace State.Waits
variable {L : LaneId} {r s : State}

theorem refl (L : LaneId) (s : State) : s.Waits L s := (State.Places.refl L s).waits

theorem trans {t : State} (h : r.Waits L s) (h' : s.Waits L t) : r.Waits L t where
  state := h'.state.trans h.state
  release := h'.release.trans h.release
  released := h'.released.trans h.released
  fill := h.fill.trans h'.fill
  held := h'.held ∘ h.held
  port q := (h.port q).trans (h'.port q)
  rest := by
    obtain ⟨h1, h2, h3⟩ := h.rest
    obtain ⟨g1, g2, g3⟩ := h'.rest
    exact ⟨g1.trans h1, g2.trans h2, g3.trans h3⟩

/-- An update of the lane that leaves the fields above. -/
theorem modLane (h : r.Waits L s) {f : Lane → Lane} (hf : (f (s.lane L)).state = (s.lane L).state ∧
    (f (s.lane L)).release = (s.lane L).release ∧ (f (s.lane L)).counters = (s.lane L).counters ∧
    (f (s.lane L)).fill = (s.lane L).fill ∧ (f (s.lane L)).held = (s.lane L).held) : r.Waits L (s.modLane L f) := by
  obtain ⟨h1, h2, h3, h4, h5⟩ := hf
  refine h.trans ⟨?_, ?_, ?_, ?_, ?_, fun q => ?_, rfl, rfl, rfl⟩
  · rw [State.lane_modLane_same, h1]
  · rw [State.lane_modLane_same, h2]
  · simp only [State.lane_modLane_same, h3]
  · rw [State.lane_modLane_same, h4]
  · rw [State.lane_modLane_same, h5]
    exact id
  · rw [State.port_modLane]
    exact .refl _

theorem when (h : r.Waits L s) (due : Bool) {f : State → State} (hf : r.Waits L (f s)) : r.Waits L (s.when due f) := by
  unfold State.when
  split
  · exact hf
  · exact h

theorem openSlot (h : r.Waits L s) : r.Waits L (s.openSlot L) := h.trans (State.Places.refl L s).openSlot.waits

theorem landIfDue (h : r.Waits L s) : r.Waits L (s.landIfDue L) :=
  h.when _ (h.trans (State.Places.refl L s).placeLanding.waits)

theorem fixIfDue (h : r.Waits L s) : r.Waits L (s.fixIfDue L) :=
  h.when _ (h.modLane (by rw [Lane.fixFinal_fields]; exact ⟨rfl, rfl, rfl, rfl, rfl⟩))

theorem finishIfDue (h : r.Waits L s) : r.Waits L (s.finishIfDue L) := by
  refine h.when _ ?_
  obtain ⟨u, hu, he⟩ := s.finishAnalysis_works L
  rw [he]
  refine State.Waits.modLane (h.trans hu.places.waits) ?_
  rw [((u.lane L).blockEnd_worked _).1]
  have hend : (u.lane L).blockEnd ((u.lane L).fill - 1) =
      { u.lane L with blocks := ((u.lane L).blockEnd ((u.lane L).fill - 1)).blocks } := by
    unfold Lane.blockEnd
    dsimp only
    split <;> rfl
  rw [hend]
  exact ⟨rfl, rfl, rfl, rfl, rfl⟩

theorem discardIfDue (h : r.Waits L s) : r.Waits L (s.discardIfDue L) :=
  h.when _ (h.modLane ⟨rfl, rfl, rfl, rfl, rfl⟩)

theorem grant (h : r.Waits L s) : r.Waits L s.grant := by
  have hg := s.grant_lane L
  refine h.trans ⟨by rw [hg], by rw [hg], by rw [hg], by rw [hg], by rw [hg]; exact id, fun q => ?_, by simp⟩
  rw [State.grant_port]
  exact .refl _

/-- Up to GO, and if none is due beyond it, all the lane does by itself leaves it waiting, unless its drain is done. -/
theorem settleLane (h : r.Waits L s)
    (hgo : (((((s.openSlot L).landIfDue L).fixIfDue L).finishIfDue L).lane L).goDue = false)
    (hdone : (((((((s.openSlot L).landIfDue L).fixIfDue L).finishIfDue L)).discardIfDue L).lane L).drainDone = false) :
    r.Waits L (s.settleLane L) := by
  rw [State.settleLane_eq, State.goIfDue_of_not hgo, State.drainIfDue_of_not hdone]
  exact h.openSlot.landIfDue.fixIfDue.finishIfDue.discardIfDue.grant

/-- A DRAINING lane with a placed position not yet released waits. -/
theorem settleLane_draining (h : r.Waits L s) (hs : (s.lane L).state = .draining)
    (hr : (s.lane L).release < (s.lane L).fill) : r.Waits L (s.settleLane L) := by
  have hw := (State.Waits.refl L s).openSlot.landIfDue.fixIfDue.finishIfDue
  refine h.settleLane ?_ ?_
  · rw [Lane.goDue, hw.state, hs]
    simp
  · have hd := hw.discardIfDue
    rw [Bool.eq_false_iff, ne_eq, Lane.drainDone_iff, hd.release]
    have := hd.fill
    omega

end State.Waits

/-! ### LANE DRAIN -/

theorem exec_laneDrain {s : State} {p : Port} {tag : Half} {lane : Byte} {rest : List Entry}
    (h : s.offers p (.whole tag lane .laneDrain) rest) :
    exec (.laneDrain p tag lane) s = .next ((s.took p rest).laneDrain p tag lane) :=
  State.take_offers h (·.laneDrain p tag lane)

/-- The lane DRAINING, and its request parked. -/
def State.draining (s : State) (p : Port) (tag : Half) (L : LaneId) : State :=
  (s.modLane L fun l => { l with state := .draining }).park p ⟨tag, L, .drain⟩

theorem State.draining_lane (s : State) (p : Port) (tag : Half) (L : LaneId) :
    (s.draining p tag L).lane L = { s.lane L with state := .draining } := by
  simp [State.draining, State.park]

theorem State.draining_port (s : State) (p : Port) (tag : Half) (L : LaneId) (q : Port) :
    (s.draining p tag L).port q =
      if q = p then { s.port q with parked := (s.port q).parked ++ [⟨tag, L, .drain⟩] } else s.port q := by
  cases p <;> cases q <;> rfl

theorem State.laneDrain_open {s : State} {lane : Byte} {L : LaneId} {p : Port} (h : lane.toNat = L.val)
    (hs : (s.lane L).state = .active) (hk : (s.port p).parkedCount < 4) (tag : Half) :
    s.laneDrain p tag lane = (s.draining p tag L).settleLane L := by
  simp only [State.laneDrain, laneOf_of_toNat h, hs, if_true, Config.parkedMax, hk]
  rfl

/-- A DRAINING lane that has placed nothing is closed at once (assumption log 7). -/
theorem State.settleLane_empty {t : State} {L : LaneId} (hs : (t.lane L).state = .draining)
    (hl : (t.lane L).landing = []) (hq : (t.lane L).logQueue = []) (hf : (t.lane L).final = none)
    (hfill : (t.lane L).fill = (t.lane L).start) (hr : (t.lane L).release = (t.lane L).start) :
    t.settleLane L = (((t.openSlot L).discardIfDue L).completeDrain L).grant := by
  have hopen := t.openSlot_lane L
  have hland : ((t.openSlot L).lane L).landingDue = false := by
    rw [Lane.landingDue, hopen]
    simp [hl]
  have hfinal : ((t.openSlot L).lane L).finalDue = false := by
    rw [Bool.eq_false_iff, ne_eq, Lane.finalDue_iff, hopen]
    exact fun h => h.2.2.2.ne hfill.symm
  have hfinish : ((t.openSlot L).lane L).finishDue = false := by
    rw [Bool.eq_false_iff, ne_eq, Lane.finishDue_iff, hopen]
    exact fun h => h.2.1 hf
  have hgo : ((t.openSlot L).lane L).goDue = false := by
    rw [Lane.goDue, hopen, hs]
    simp
  have hdone : (((t.openSlot L).discardIfDue L).lane L).drainDone = true := by
    rw [Lane.drainDone_iff, State.discardIfDue_lane, hopen]
    exact ⟨hs, hl, hq, hr.trans hfill.symm, .inr hfill⟩
  rw [State.settleLane_eq, State.landIfDue_of_not hland, State.fixIfDue_of_not hfinal,
    State.finishIfDue_of_not hfinish, State.goIfDue_of_not hgo, State.drainIfDue, hdone]
  rfl

@[simp] theorem State.discardIfDue_port (t : State) (L : LaneId) (q : Port) :
    (t.discardIfDue L).port q = t.port q := by
  unfold State.discardIfDue State.when
  split
  · simp [State.discardRetiring]
  · rfl

theorem laneDrain_refused {s : State} {p : Port} {tag : Half} {lane : Byte} {rest : List Entry}
    (hoff : s.offers p (.whole tag lane .laneDrain) rest) :
    let refused := fun (st : Status) =>
      exec (.laneDrain p tag lane) s = .next ((s.took p rest).replied p tag lane st [0x03#8])
    (5 < lane.toNat → refused .range) ∧
    ∀ L : LaneId, lane.toNat = L.val →
      ((s.lane L).state ≠ .active → refused .state) ∧
      ((s.lane L).state = .active → 4 ≤ (s.port p).parkedCount → refused .busy) := by
  intro refused
  have hexec := exec_laneDrain hoff
  refine ⟨fun h => ?_, fun L hL => ⟨fun hs => ?_, fun hs hk => ?_⟩⟩
  · simp only [refused, hexec, State.laneDrain, laneOf_none h]
    rfl
  · simp only [refused, hexec, State.laneDrain, laneOf_of_toNat hL, State.took_lane, hs, if_false]
    rfl
  · have hfull : ¬((s.took p rest).port p).parkedCount < Config.parkedMax := by
      rw [State.took_port_same]
      exact Nat.not_lt.mpr hk
    simp only [refused, hexec, State.laneDrain, laneOf_of_toNat hL, State.took_lane, hs, if_true, hfull, if_false]
    rfl

/-- Settles O19: the refusals by the checks in their order; a lane with a placed position waits, and an empty one is
closed by the completion of its drain. -/
theorem laneDrainIsRefusedOrParked : Obligations.LaneDrainIsRefusedOrParked := by
  refine ⟨fun s p tag lane rest hoff => ?_, fun s p tag lane rest L hoff hL hs hk => ?_⟩
  · exact laneDrain_refused hoff
  have hexec : exec (.laneDrain p tag lane) s = .next (((s.took p rest).draining p tag L).settleLane L) := by
    rw [exec_laneDrain hoff, State.laneDrain_open hL (by rw [State.took_lane]; exact hs)
      (by rw [State.took_port_same]; exact hk)]
  have hlane : ((s.took p rest).draining p tag L).lane L = { s.lane L with state := .draining } := by
    rw [State.draining_lane, State.took_lane]
  have hport : ∀ q, ((s.took p rest).draining p tag L).port q = if q = p then
      { s.port q with queue := rest, parked := (s.port q).parked ++ [⟨tag, L, .drain⟩] } else s.port q := by
    intro q
    rw [State.draining_port, State.port_took]
    split <;> rfl
  rw [hexec]
  generalize hd : (s.took p rest).draining p tag L = d at hlane hport
  refine ⟨fun hrel => ?_, fun hfill hrel hland hlog hfinal => ?_⟩
  · have hw : d.Waits L (d.settleLane L) :=
      (State.Waits.refl L d).settleLane_draining (by rw [hlane]) (by rw [hlane]; exact hrel)
    have hself := (hw.port p).1
    rw [hport p, if_pos rfl] at hself
    refine ⟨_, rfl, hw.state.trans (by rw [hlane]), by rw [hself], by rw [hself], by rw [hself]; exact hoff.2.1,
      by rw [hself], fun hh => hw.held (by rw [hlane]; exact hh), fun q e he hg => ?_, fun q hq => ?_, ?_⟩
    · have := (hw.port q).2 e he hg
      rw [hport q] at this
      split at this <;> exact this
    · have h := (hw.port q).1
      rw [hport q, if_neg hq] at h
      rw [h]
      exact ⟨rfl, rfl, rfl⟩
    · obtain ⟨h1, h2, h3⟩ := hw.rest
      rw [h1, h2, h3, ← hd]
      simp [State.draining, State.park]
  · rw [State.settleLane_empty (t := d) (by rw [hlane]) (by rw [hlane]; exact hland) (by rw [hlane]; exact hlog)
      (by rw [hlane]; exact hfinal) (by rw [hlane]; exact hfill) (by rw [hlane]; exact hrel)]
    refine ⟨_, rfl, ?_, ?_, ?_⟩
    · rw [State.grant_lane, State.completeDrain_lane]
      rfl
    · rw [State.grant_lane, State.completeDrain_lane]
      rfl
    · rw [State.grant_port, State.completeDrain_port, State.discardIfDue_port, State.openSlot_port, hport, if_pos rfl]
      simp [List.filter_append]

end Sys2Proof.Machine

/-! PROOF. The places of a lane's positions in the Sample Store, a run of positions written there and read back, and
the placing of positions one at a time. -/

namespace Sys2Proof.Machine
open Sys2Proof

/-! ### Addresses -/

theorem Lane.cell_mod (l : Lane) (pos : Nat) : l.cell pos % 256 = (pos - l.start) % 256 := by
  simp only [Lane.cell, Config.blockLen]
  omega

theorem Lane.cell_div (l : Lane) (pos : Nat) : l.cell pos / 256 = l.slotOf (l.ord pos) := by
  simp only [Lane.cell, Config.blockLen]
  omega

/-- Two positions of one block have different addresses. -/
theorem Lane.cell_inj_ord {l : Lane} {a b : Nat} (ha : l.start ≤ a) (hb : l.start ≤ b) (ho : l.ord a = l.ord b)
    (h : l.cell a = l.cell b) : a = b := by
  have hm := l.cell_mod a
  have hm' := l.cell_mod b
  simp only [Lane.ord, Config.blockLen] at ho
  omega

/-- Neighbouring positions have different addresses. -/
theorem Lane.cell_succ_ne {l : Lane} {a : Nat} (ha : l.start ≤ a) : l.cell a ≠ l.cell (a + 1) := by
  have hm := l.cell_mod a
  have hm' := l.cell_mod (a + 1)
  omega

/-- Positions less than a ring apart have different addresses, the slots of the ring being different (R10). -/
theorem Lane.cell_inj_ring {l : Lane} (hr : l.ring.Nodup) {a b : Nat} (ha : l.start ≤ a) (hb : l.start ≤ b)
    (hab : a < b + 256 * l.ring.length) (hba : b < a + 256 * l.ring.length) (h : l.cell a = l.cell b) : a = b := by
  have hm := l.cell_mod a
  have hm' := l.cell_mod b
  have hslot : l.slotOf (l.ord a) = l.slotOf (l.ord b) := by rw [← l.cell_div, ← l.cell_div, h]
  have hpos : 0 < l.ring.length := by omega
  have hlt : ∀ j, l.entryOf j < l.ring.length := fun j => Nat.mod_lt _ hpos
  have hentry : l.entryOf (l.ord a) = l.entryOf (l.ord b) := by
    simp only [Lane.slotOf, List.getD_eq_getElem?_getD, List.getElem?_eq_getElem (hlt _), Option.getD_some] at hslot
    exact (List.Nodup.getElem_inj_iff hr).1 hslot
  have hord : l.ord a = l.ord b := by
    simp only [Lane.entryOf, Lane.ringSize, Lane.ord, Config.blockLen] at hentry ⊢
    generalize ha' : (a - l.start) / 256 = x at *
    generalize hb' : (b - l.start) / 256 = y at *
    have hxy : x < y + l.ring.length := by omega
    have hyx : y < x + l.ring.length := by omega
    have hx := Nat.div_add_mod x l.ring.length
    have hy := Nat.div_add_mod y l.ring.length
    rw [hentry] at hx
    rcases Nat.lt_trichotomy (x / l.ring.length) (y / l.ring.length) with hlt | heq | hgt
    · have := Nat.mul_le_mul_left l.ring.length (Nat.succ_le_of_lt hlt)
      rw [Nat.mul_succ] at this
      omega
    · rw [heq] at hx
      omega
    · have := Nat.mul_le_mul_left l.ring.length (Nat.succ_le_of_lt hgt)
      rw [Nat.mul_succ] at this
      omega
  exact Lane.cell_inj_ord ha hb hord h

/-! ### A run of positions in the store -/

/-- Positions from `m` on written at their addresses, each with a sample or as missing (R9, R14). -/
def SampleStore.putRun (cell : Nat → Nat) : Nat → List (Option Int) → SampleStore → SampleStore
  | _, [], st => st
  | m, v :: vs, st => putRun cell (m + 1) vs ((st.setRaw (cell m) (v.getD 0)).setMissing (cell m) v.isNone)

section
variable {cell : Nat → Nat}

theorem SampleStore.putRun_append (m : Nat) (vs ws : List (Option Int)) (st : SampleStore) :
    st.putRun cell m (vs ++ ws) = (st.putRun cell m vs).putRun cell (m + vs.length) ws := by
  induction vs generalizing m st with
  | nil => rfl
  | cons v vs ih =>
    rw [List.cons_append, SampleStore.putRun, ih, SampleStore.putRun, List.length_cons, Nat.add_right_comm,
      Nat.add_assoc]

theorem SampleStore.putRun_rest (m : Nat) (vs : List (Option Int)) (st : SampleStore) :
    (st.putRun cell m vs).restored = st.restored ∧ (st.putRun cell m vs).checkpoints = st.checkpoints := by
  induction vs generalizing m st with
  | nil => exact ⟨rfl, rfl⟩
  | cons v vs ih => exact ih _ _

theorem SampleStore.putRun_wf (m : Nat) (vs : List (Option Int)) {st : SampleStore} (h : st.wf = true) :
    (st.putRun cell m vs).wf = true := by
  induction vs generalizing m st with
  | nil => exact h
  | cons v vs ih => exact ih _ (SampleStore.setMissing_wf _ _ _ (SampleStore.setRaw_wf _ _ _ h))

/-- One position's write read back. -/
theorem SampleStore.read_put {st : SampleStore} (h : st.wf = true) (k a : Nat) (x : Int) (b : Bool) :
    Cells.read 0 a ((st.setRaw k x).setMissing k b).raw = (if a = k then x else Cells.read 0 a st.raw) ∧
    Cells.read false a ((st.setRaw k x).setMissing k b).missing =
      if a = k then b else Cells.read false a st.missing := by
  obtain ⟨hr, hm, -⟩ := (SampleStore.wf_iff st).1 h
  exact ⟨Cells.read_write 0 k a x hr, Cells.read_write false k a b hm⟩

/-- What the run does not write stands. -/
theorem SampleStore.putRun_read_ne {a m : Nat} {vs : List (Option Int)} {st : SampleStore} (h : st.wf = true)
    (ha : ∀ i, i < vs.length → a ≠ cell (m + i)) :
    Cells.read 0 a (st.putRun cell m vs).raw = Cells.read 0 a st.raw ∧
    Cells.read false a (st.putRun cell m vs).missing = Cells.read false a st.missing := by
  induction vs generalizing m st with
  | nil => exact ⟨rfl, rfl⟩
  | cons v vs ih =>
    have hne : a ≠ cell m := ha 0 (Nat.succ_pos _)
    obtain ⟨hr, hm⟩ := SampleStore.read_put h (cell m) a (v.getD 0) v.isNone
    rw [if_neg hne] at hr hm
    have hw := SampleStore.setMissing_wf _ (cell m) v.isNone (SampleStore.setRaw_wf _ (cell m) (v.getD 0) h)
    obtain ⟨ir, im⟩ := ih (m := m + 1) hw fun i hi => by
      rw [Nat.add_assoc, Nat.add_comm 1]
      exact ha (i + 1) (Nat.succ_lt_succ hi)
    exact ⟨ir.trans hr, im.trans hm⟩

/-- What the run writes is read back, where its addresses differ. -/
theorem SampleStore.putRun_read {i m : Nat} {vs : List (Option Int)} {v : Option Int} {st : SampleStore}
    (h : st.wf = true) (hinj : ∀ i j, i < vs.length → j < vs.length → cell (m + i) = cell (m + j) → i = j)
    (hv : vs[i]? = some v) :
    Cells.read 0 (cell (m + i)) (st.putRun cell m vs).raw = v.getD 0 ∧
    Cells.read false (cell (m + i)) (st.putRun cell m vs).missing = v.isNone := by
  induction vs generalizing m st i with
  | nil => simp at hv
  | cons w vs ih =>
    have hw := SampleStore.setMissing_wf _ (cell m) w.isNone (SampleStore.setRaw_wf _ (cell m) (w.getD 0) h)
    have hshift : ∀ k, m + 1 + k = m + (k + 1) := fun k => by omega
    cases i with
    | zero =>
      obtain rfl : w = v := by simpa using hv
      obtain ⟨hr, hm⟩ := SampleStore.read_put h (cell m) (cell m) (w.getD 0) w.isNone
      rw [if_pos rfl] at hr hm
      obtain ⟨ir, im⟩ := SampleStore.putRun_read_ne (cell := cell) (a := cell m) (m := m + 1) (vs := vs) hw
        fun i hi he => by
          rw [hshift] at he
          exact absurd (hinj 0 (i + 1) (Nat.succ_pos _) (Nat.succ_lt_succ hi) he) (Nat.succ_ne_zero i).symm
      exact ⟨ir.trans hr, im.trans hm⟩
    | succ i =>
      rw [← hshift]
      exact ih hw (fun a b ha hb he => by
        rw [hshift, hshift] at he
        exact Nat.succ.inj (hinj _ _ (Nat.succ_lt_succ ha) (Nat.succ_lt_succ hb) he)) (by simpa using hv)

end

end Sys2Proof.Machine

/-! PROOF. Valid samples placed at the fill point (R14, R15), with no piece and no stop before them, and a frame
heard on an open lane (R13). -/

namespace Sys2Proof.Machine
open Sys2Proof

/-! ### A store and a lane put in place -/

/-- The state with this store and this lane record. -/
def State.put (s : State) (L : LaneId) (st : SampleStore) (l : Lane) : State := (s.setStore st).setLane L l

section
variable (s : State) (L : LaneId) (st : SampleStore) (l : Lane)

@[simp] theorem State.put_lane : (s.put L st l).lane L = l := State.lane_setLane_same _ _ _
@[simp] theorem State.put_store : (s.put L st l).store = st := rfl
@[simp] theorem State.put_port (q : Port) : (s.put L st l).port q = s.port q := by cases q <;> rfl
@[simp] theorem State.put_engine : (s.put L st l).engine = s.engine := rfl
@[simp] theorem State.put_events : (s.put L st l).events = s.events := rfl

theorem State.put_other {M : LaneId} (h : M ≠ L) : (s.put L st l).lane M = s.lane M :=
  State.lane_setLane_ne _ _ _ _ h

theorem State.setLane_setLane (m : Lane) : (s.setLane L l).setLane L m = s.setLane L m := by
  simp [State.setLane]

theorem State.setLane_self : s.setLane L (s.lane L) = s := by
  simp [State.setLane, State.lane]

theorem State.put_put (st' : SampleStore) (l' : Lane) : (s.put L st l).put L st' l' = s.put L st' l' :=
  State.setLane_setLane (s.setStore st') L l l'

theorem State.put_self : s.put L s.store (s.lane L) = s := s.setLane_self L

theorem State.put_modLane (f : Lane → Lane) : (s.put L st l).modLane L f = s.put L st (f l) := by
  rw [State.modLane, State.put_lane]
  exact State.setLane_setLane _ _ _ _

end

/-! ### The block at the fill point -/

/-- Two lane records of one ring at possibly different fill points. -/
structure Lane.SameSlots (l m : Lane) : Prop where
  state : m.state = l.state
  start : m.start = l.start
  ring : m.ring = l.ring
  release : m.release = l.release
  final : m.final = l.final
  blocks : m.blocks = l.blocks

theorem Lane.SameSlots.inRing {l m : Lane} (h : l.SameSlots m) (j : Nat) : m.inRing j = l.inRing j := by
  unfold Lane.inRing Lane.oldest Lane.ringSize
  rw [h.start, h.ring, h.release]

/-- The FILLING block at the fill point has room for `n` more positions. -/
structure Lane.Takes (l : Lane) (n : Nat) : Prop where
  opened : l.state ≠ .closed
  start : l.start ≤ l.fill
  final : l.final = none
  inRing : l.inRing (l.ord l.fill) = true
  filling : (l.block (l.ord l.fill)).state = .filling
  room : (l.fill - l.start) % 256 + n ≤ 256
  top : l.fill + n ≤ 4294967296

theorem Lane.takesWithinBlock.takes {l : Lane} {n : Nat} (h : l.takesWithinBlock n) : l.Takes n := by
  obtain ⟨hact, -, -, -, -, hstart, hfinal, hin, hfill, hroom, htop⟩ := h
  exact ⟨by rw [hact]; decide, hstart, hfinal, hin, hfill, hroom.le, htop⟩

namespace Lane.Takes
variable {l m : Lane} {n : Nat}

theorem canPlace (h : l.Takes (n + 1)) : l.canPlace = true := by
  have htop : l.fill < Config.topPos := by
    have := h.top
    simp only [Config.topPos]
    omega
  simp [Lane.canPlace, Lane.mayFill, (Lane.isOpen_iff l).2 h.opened, h.final, h.inRing, h.filling, htop]

/-- A full ring, or the top of the positions, is not where the lane stands. -/
theorem fillSlotFree (h : l.Takes n) : l.fillSlotFree = false := by
  simp [Lane.fillSlotFree, h.filling]

/-- The block after `n` positions of it are placed. -/
theorem shift {k : Nat} (h : l.Takes (n + k)) (hin : (l.fill - l.start) % 256 + n < 256) (hs : l.SameSlots m)
    (hfill : m.fill = l.fill + n) : m.Takes k := by
  have hstart := h.start
  have hroom := h.room
  have htop := h.top
  have hord : m.ord m.fill = l.ord l.fill := by
    simp only [Lane.ord, hs.start, hfill, Config.blockLen]
    omega
  refine ⟨by rw [hs.state]; exact h.opened, by rw [hs.start]; omega, by rw [hs.final]; exact h.final, ?_, ?_, ?_,
    by omega⟩
  · rw [hord, hs.inRing]
    exact h.inRing
  · rw [hord, Lane.block_congr hs.ring hs.blocks]
    exact h.filling
  · rw [hfill, hs.start]
    omega

theorem step (h : l.Takes (n + 1)) (hin : (l.fill - l.start) % 256 + 1 < 256) (hs : l.SameSlots m)
    (hfill : m.fill = l.fill + 1) : m.Takes n :=
  Lane.Takes.shift (by rwa [Nat.add_comm]) hin hs hfill

theorem mono (h : l.Takes n) {k : Nat} (hk : k ≤ n) : l.Takes k :=
  ⟨h.opened, h.start, h.final, h.inRing, h.filling, by have := h.room; omega, by have := h.top; omega⟩

end Lane.Takes

/-! ### One position -/

/-- One position counted and behind the fill point. -/
def Lane.advance (c : Ctr) (l : Lane) : Lane := { l.count c with fill := l.fill + 1 }

theorem Lane.advance_sameSlots (c : Ctr) (l : Lane) : l.SameSlots (l.advance c) := ⟨rfl, rfl, rfl, rfl, rfl, rfl⟩

/-- `n` positions of one kind, the counter saturating (R179). -/
theorem Lane.advance_iterate (c : Ctr) {n : Nat} (h : 0 < n) (l : Lane) : (Lane.advance c)^[n] l = { l with
    fill := l.fill + n
    counters := l.counters.set c.index.val (min (l.counters[c.index.val] + n) 4294967295) } := by
  induction n generalizing l with
  | zero => exact absurd h (lt_irrefl 0)
  | succ n ih =>
    rw [Function.iterate_succ_apply]
    rcases Nat.eq_zero_or_pos n with rfl | hn
    · rfl
    · rw [ih hn]
      simp only [Lane.advance, Lane.count, Lane.counter, satInc, Config.max32, Vector.getElem_set_self,
        Vector.set_set, Nat.add_assoc, Nat.add_comm 1 n]
      congr 2
      omega

theorem Lane.advance_iterate_fill (c : Ctr) (n : Nat) (l : Lane) :
    (Lane.advance c)^[n] l = { l with fill := l.fill + n, counters := ((Lane.advance c)^[n] l).counters } := by
  rcases Nat.eq_zero_or_pos n with rfl | hn
  · rfl
  · rw [Lane.advance_iterate c hn]

/-- The position at the fill point stored, counted, and told to the GAP pieces. -/
def State.covered (s : State) (L : LaneId) (v : Option Int) : State :=
  let m := (s.lane L).fill
  let k := (s.lane L).cell m
  let stored := s.setStore ((s.store.setRaw k (v.getD 0)).setMissing k v.isNone)
  match v with
  | some x => (stored.count L .placed).coverValid L m x
  | none => (stored.count L .missing).coverMissing L m

theorem State.placeOne_eq (s : State) (L : LaneId) (v : Option Int) : s.placeOne L v =
    if ((s.lane L).fill - (s.lane L).start) % 256 = 255 then
      ((s.covered L v).modLane L fun l => { l with fill := l.fill + 1 }).turnRing L
    else (s.covered L v).modLane L fun l => { l with fill := l.fill + 1 } := by
  cases v <;> rfl

/-- A valid sample behind no piece is stored and counted. -/
theorem State.covered_valid {s : State} {L : LaneId} (hp : (s.lane L).piece = none) (hg : (s.lane L).gapStop = none)
    (x : Int) : s.covered L (some x) = s.put L (s.store.putRun (s.lane L).cell (s.lane L).fill [some x])
      ((s.lane L).count .placed) := by
  have hend : (((s.lane L).count .placed)).pieceEnd = none := by
    simp only [Lane.pieceEnd, Lane.count, hp]
  have hstop : ({ (s.lane L).count .placed with gapStop := none } : Lane) = (s.lane L).count .placed := by
    simp only [Lane.count, ← hg]
  simp only [State.covered, State.coverValid, State.count, State.lane_modLane_same, State.lane_setStore, hend]
  rw [State.modLane, State.lane_modLane_same, State.lane_setStore, hstop]
  exact State.setLane_setLane _ _ _ _

theorem State.placeOne_valid {s : State} {L : LaneId} (hp : (s.lane L).piece = none) (hg : (s.lane L).gapStop = none)
    (x : Int) : s.placeOne L (some x) =
      let t := s.put L (s.store.putRun (s.lane L).cell (s.lane L).fill [some x]) ((s.lane L).advance .placed)
      if ((s.lane L).fill - (s.lane L).start) % 256 = 255 then t.turnRing L else t := by
  rw [State.placeOne_eq, State.covered_valid hp hg, State.put_modLane]
  rfl

/-! ### Runs of a frame -/

theorem placeRun_nil (L : LaneId) (k : Nat) (s : State) (st : Nat) (r : Bool) :
    placeRun L (k + 1) s ⟨st, [], r⟩ = (s, none) := rfl

/-- A sample at the fill point is placed. -/
theorem placeRun_at {L : LaneId} {s : State} (h : (s.lane L).canPlace = true) (k : Nat) (v : Option Int)
    (vs : List (Option Int)) (r : Bool) :
    placeRun L (k + 1) s ⟨(s.lane L).fill, v :: vs, r⟩ =
      placeRun L k (s.placeOne L v) ⟨(s.lane L).fill + 1, vs, r⟩ := by
  rw [placeRun]
  simp [h]

/-- Samples before the fill point are trimmed. -/
theorem placeRun_trim {L : LaneId} {s : State} (vs ws : List (Option Int)) (k st : Nat) (r : Bool)
    (h : st + vs.length ≤ (s.lane L).fill) :
    placeRun L (vs.length + k) s ⟨st, vs ++ ws, r⟩ = placeRun L k s ⟨st + vs.length, ws, r⟩ := by
  induction vs generalizing st with
  | nil => simp
  | cons v vs ih =>
    simp only [List.length_cons] at h
    rw [List.length_cons, Nat.add_right_comm, List.cons_append, placeRun]
    simp only [show st < (s.lane L).fill by omega, if_true]
    rw [ih (st + 1) (by omega), Nat.add_assoc, Nat.add_comm 1]

/-- Valid samples that do not complete the block. -/
theorem placeRun_valid {L : LaneId} (xs : List Int) {s : State} (hl : (s.lane L).Takes xs.length)
    (hin : ((s.lane L).fill - (s.lane L).start) % 256 + xs.length < 256) (hp : (s.lane L).piece = none)
    (hg : (s.lane L).gapStop = none) (k : Nat) (vs : List (Option Int)) (r : Bool) :
    placeRun L (xs.length + k) s ⟨(s.lane L).fill, xs.map some ++ vs, r⟩ =
      placeRun L k (s.put L (s.store.putRun (s.lane L).cell (s.lane L).fill (xs.map some))
        ((Lane.advance .placed)^[xs.length] (s.lane L))) ⟨(s.lane L).fill + xs.length, vs, r⟩ := by
  induction xs generalizing s with
  | nil => simp [SampleStore.putRun, State.put_self]
  | cons x xs ih =>
    simp only [List.length_cons] at hl hin
    have hstep := hl.step (by omega) ((s.lane L).advance_sameSlots .placed) rfl
    rw [List.length_cons, Nat.add_right_comm, List.map_cons, List.cons_append, placeRun_at hl.canPlace,
      State.placeOne_valid hp hg]
    simp only [show ¬((s.lane L).fill - (s.lane L).start) % 256 = 255 by omega, if_false]
    have hput := State.put_lane s L (s.store.putRun (s.lane L).cell (s.lane L).fill [some x])
      ((s.lane L).advance .placed)
    have h := ih (s := s.put L (s.store.putRun (s.lane L).cell (s.lane L).fill [some x])
      ((s.lane L).advance .placed)) (by rw [hput]; exact hstep)
      (by rw [hput]; have := hl.start; simp only [Lane.advance, Lane.count]; omega) (by rw [hput]; exact hp)
      (by rw [hput]; exact hg)
    rw [hput, State.put_put] at h
    refine Eq.trans h ?_
    rw [Function.iterate_succ_apply, Nat.add_comm xs.length 1, ← Nat.add_assoc]
    rfl

end Sys2Proof.Machine

/-! PROOF. Frames heard on an ACTIVE lane (R13), placed at the fill point, trimmed, run over a block's end, held. The
statement O9, and the clauses of O8 that meet no missing position. -/

namespace Sys2Proof.Machine
open Sys2Proof

/-! ### The decoded frame -/

theorem decodeWords_length (w : Width) (o : ByteOrder) (n : Nat) (bs : List Byte) :
    (decodeWords w o n bs).length = n := by
  induction n generalizing bs with
  | zero => rfl
  | succ n ih => rw [decodeWords, List.length_cons, ih]

theorem sampleCount_pos (payload : List Byte) : 0 < sampleCount payload := by
  unfold sampleCount
  split
  · omega
  · rename_i h
    exact Nat.pos_of_ne_zero fun h0 => h (BitVec.eq_of_toNat_eq h0)

theorem sampleCount_le (payload : List Byte) : sampleCount payload ≤ 256 := by
  unfold sampleCount
  split
  · exact le_refl _
  · exact (byteAt payload 4).isLt.le

/-- The words of a SAMPLES frame heard on port `q`. -/
def PortRec.words (q : PortRec) (payload : List Byte) : List Int :=
  decodeWords q.width q.order (sampleCount payload) (payload.drop 5)

theorem PortRec.words_length (q : PortRec) (payload : List Byte) : (q.words payload).length = sampleCount payload :=
  decodeWords_length _ _ _ _

/-- A frame with its BAD flag clear. -/
theorem samplesEntry_clear {s : State} {p : Port} {bytes : List Byte} {L : LaneId} (h : s.hearsSamples p bytes L)
    (hb : (byteAt bytes 2).getLsbD 0 = false) : samplesEntry (s.port p) (byteAt bytes 2) (framePayload bytes) =
      ⟨fieldAt bytes 8 4, ((s.port p).words (framePayload bytes)).map some, false⟩ := by
  rw [← samplesEntry_start h]
  simp only [samplesEntry, hb]
  rfl

/-- A BAD frame. -/
theorem samplesEntry_bad {s : State} {p : Port} {bytes : List Byte} {L : LaneId} (h : s.hearsSamples p bytes L)
    (hb : (byteAt bytes 2).getLsbD 0 = true) : samplesEntry (s.port p) (byteAt bytes 2) (framePayload bytes) =
      ⟨fieldAt bytes 8 4, List.replicate (sampleCount (framePayload bytes)) none, false⟩ := by
  rw [← samplesEntry_start h]
  simp only [samplesEntry, hb, if_true, List.map_const', decodeWords_length]

/-! ### A frame that meets no row of R13 but the last -/

/-- An accepted frame that can be placed whole. -/
theorem State.acceptFrame_placed {s t : State} {L : LaneId} {e : Landed} (hland : (s.lane L).landing = [])
    (htake : (s.lane L).takesFrame = true) (hplace : s.placeFrame L e = (t, none)) : s.acceptFrame L e = t := by
  simp only [State.acceptFrame, hland, htake, hplace, List.isEmpty_nil, Bool.and_self, if_true]

/-- A frame for an ACTIVE lane that is not held and can place it is placed. -/
theorem State.samplesFor_placed {s t : State} {p : Port} {L : LaneId} {e : Landed} (hsrc : (s.lane L).source = p)
    (hact : (s.lane L).state = .active) (hheld : (s.lane L).held = false) (hland : (s.lane L).landing = [])
    (htake : (s.lane L).takesFrame = true) (htop : e.start + e.samples.length ≤ 4294967296)
    (hplace : s.placeFrame L e = (t, none)) : s.samplesFor p L e = t := by
  have hcut : s.cutFrame L e = (s, e) := if_neg (Nat.not_lt.mpr htop)
  have haccept : s.samplesFor p L e = (s.cutFrame L e).1.acceptFrame L (s.cutFrame L e).2 := by
    simp [State.samplesFor, hsrc, hact, hheld]
  rw [haccept, hcut]
  exact State.acceptFrame_placed hland htake hplace

theorem State.placeFrame_at {s : State} {L : LaneId} {e : Landed} (h : e.start = (s.lane L).fill) :
    s.placeFrame L e = placeRun L (256 * ((s.lane L).ringSize + 2)) s e := by
  simp only [State.placeFrame, h, lt_irrefl, false_and, if_false, Config.blockLen]

theorem State.placeFrame_ahead {s : State} {L : LaneId} {e : Landed} (h : (s.lane L).fill ≤ e.start) :
    s.placeFrame L e = placeRun L (256 * ((s.lane L).ringSize + 2)) s e := by
  simp only [State.placeFrame, Nat.not_lt.mpr h, false_and, if_false, Config.blockLen]

theorem State.placeFrame_behind {s : State} {L : LaneId} {e : Landed} (h : e.start < (s.lane L).fill)
    (hr : e.resumed = false) (hs : e.samples ≠ []) :
    s.placeFrame L e = placeRun L (256 * ((s.lane L).ringSize + 2)) (s.count L .duplicate) e := by
  simp only [State.placeFrame, h, hr, ne_eq, hs, not_false_eq_true, and_self, if_true, Config.blockLen]

theorem Lane.takesFrame_iff (l : Lane) : l.takesFrame = true ↔ l.canPlace = true ∨ l.fill = 4294967296 := by
  rw [Lane.takesFrame, Bool.or_eq_true, decide_eq_true_eq]
  rfl

theorem Lane.Takes.takesFrame {l : Lane} {n : Nat} (h : l.Takes (n + 1)) : l.takesFrame = true := by
  rw [Lane.takesFrame, h.canPlace, Bool.true_or]

/-! ### Reading the placed samples back -/

/-- The addresses of positions of one block differ. -/
theorem Lane.cell_inj_within {l : Lane} {n : Nat} (hs : l.start ≤ l.fill) (hr : (l.fill - l.start) % 256 + n ≤ 256)
    {i j : Nat} (hi : i < n) (hj : j < n) (h : l.cell (l.fill + i) = l.cell (l.fill + j)) : i = j := by
  have := Lane.cell_inj_ord (l := l) (by omega) (by omega)
    (by simp only [Lane.ord, Config.blockLen]; omega) h
  omega

/-- The reads of a run of valid samples. -/
theorem SampleStore.putRun_valid {cell : Nat → Nat} {m : Nat} {xs : List Int} {st : SampleStore} (h : st.wf = true)
    (hinj : ∀ i j, i < xs.length → j < xs.length → cell (m + i) = cell (m + j) → i = j) :
    (∀ i x, xs[i]? = some x → Cells.read 0 (cell (m + i)) (st.putRun cell m (xs.map some)).raw = x ∧
      Cells.read false (cell (m + i)) (st.putRun cell m (xs.map some)).missing = false) ∧
    ∀ a, (∀ i, i < xs.length → a ≠ cell (m + i)) →
      Cells.read 0 a (st.putRun cell m (xs.map some)).raw = Cells.read 0 a st.raw ∧
      Cells.read false a (st.putRun cell m (xs.map some)).missing = Cells.read false a st.missing := by
  refine ⟨fun i x hx => ?_, fun a ha => SampleStore.putRun_read_ne h (by simpa using ha)⟩
  exact SampleStore.putRun_read (v := some x) h (by simpa using hinj) (by simp [hx])

/-! ### Placed within the block -/

/-- A frame of valid samples at the fill point that does not complete the block. -/
theorem State.placeFrame_within {s : State} {L : LaneId} {xs : List Int} (hl : (s.lane L).Takes xs.length)
    (hin : ((s.lane L).fill - (s.lane L).start) % 256 + xs.length < 256) (hp : (s.lane L).piece = none)
    (hg : (s.lane L).gapStop = none) (r : Bool) : s.placeFrame L ⟨(s.lane L).fill, xs.map some, r⟩ =
      (s.put L (s.store.putRun (s.lane L).cell (s.lane L).fill (xs.map some))
        ((Lane.advance .placed)^[xs.length] (s.lane L)), none) := by
  obtain ⟨k, hk⟩ : ∃ k, 256 * ((s.lane L).ringSize + 2) = xs.length + (k + 1) :=
    ⟨256 * ((s.lane L).ringSize + 2) - xs.length - 1, by omega⟩
  rw [State.placeFrame_at rfl, hk, ← List.append_nil (xs.map some), placeRun_valid xs hl hin hp hg, placeRun_nil,
    List.append_nil]

/-- A frame heard whose samples are placed within the block. -/
theorem exec_samples_within {s : State} {p : Port} {bytes : List Byte} {L : LaneId} (hears : s.hearsSamples p bytes L)
    (hsrc : (s.lane L).source = p) (hl : (s.lane L).takesWithinBlock (sampleCount (framePayload bytes)))
    (hb : (byteAt bytes 2).getLsbD 0 = false) (hpos : fieldAt bytes 8 4 = (s.lane L).fill) :
    exec (.samplesFrame p bytes) s = .next (s.event.put L
      (s.store.putRun (s.lane L).cell (s.lane L).fill (((s.port p).words (framePayload bytes)).map some))
      ((Lane.advance .placed)^[sampleCount (framePayload bytes)] (s.lane L))).grant := by
  have htakes := hl.takes
  obtain ⟨hact, hheld, hland, hpiece, hstop, -, -, -, -, hroom, htop⟩ := hl
  have hlen := (s.port p).words_length (framePayload bytes)
  have hone : (s.lane L).Takes (0 + 1) := htakes.mono (sampleCount_pos _)
  rw [← hlen] at htakes hroom htop ⊢
  have hplaced := State.samplesFor_placed (s := s.event) hsrc hact hheld hland hone.takesFrame (by simpa using htop)
    (State.placeFrame_within (s := s.event) htakes hroom hpiece hstop false)
  rw [exec_samplesFrame hears, samplesEntry_clear hears hb, hpos]
  exact congrArg (fun t : State => Host.Outcome.next t.grant) hplaced

/-- The first clause of O8: at the fill point, within the block. -/
theorem samples_placed_within (s : State) (p : Port) (bytes : List Byte) (L : LaneId) (hwf : s.storeWf)
    (hears : s.hearsSamples p bytes L) :
    let l := s.lane L
    let payload := framePayload bytes
    let n := sampleCount payload
    let xs := decodeWords (s.port p).width (s.port p).order n (payload.drop 5)
    l.source = p → l.takesWithinBlock n → (byteAt bytes 2).getLsbD 0 = false → fieldAt bytes 8 4 = l.fill →
    ∃ t : State, exec (.samplesFrame p bytes) s = .next t.grant ∧
      t.lane L = { l with
        fill := l.fill + n
        counters := l.counters.set 0 (min (l.counters[0] + n) 4294967295) } ∧
      (∀ M, M ≠ L → t.lane M = s.lane M) ∧ (∀ q, t.port q = s.port q) ∧ t.engine = s.engine ∧
      (∀ i x, xs[i]? = some x →
        Cells.read 0 (l.cell (l.fill + i)) t.store.raw = x ∧
        Cells.read false (l.cell (l.fill + i)) t.store.missing = false) ∧
      (∀ a, (∀ i, i < n → a ≠ l.cell (l.fill + i)) →
        Cells.read 0 a t.store.raw = Cells.read 0 a s.store.raw ∧
        Cells.read false a t.store.missing = Cells.read false a s.store.missing) ∧
      t.store.restored = s.store.restored ∧ t.store.checkpoints = s.store.checkpoints := by
  intro l payload n xs hsrc hl hb hpos
  have hlen : xs.length = n := decodeWords_length _ _ _ _
  have htakes := hl.takes
  obtain ⟨hread, hother⟩ := SampleStore.putRun_valid (cell := l.cell) (m := l.fill) (xs := xs) hwf
    fun i j hi hj => Lane.cell_inj_within htakes.start (by rw [hlen]; exact htakes.room) hi hj
  rw [hlen] at hother
  obtain ⟨hrest, hcheck⟩ := SampleStore.putRun_rest (cell := l.cell) l.fill (xs.map some) s.store
  refine ⟨_, exec_samples_within hears hsrc hl hb hpos, ?_, fun M hM => ?_, fun q => ?_, rfl, hread, hother, hrest,
    hcheck⟩
  · rw [State.put_lane]
    exact Lane.advance_iterate .placed (sampleCount_pos _) _
  · rw [State.put_other _ _ _ _ hM]
    rfl
  · rw [State.put_port, State.port_event]

/-! ### Placed behind the fill point -/

/-- The samples of a frame heard, whatever its BAD flag. -/
theorem samplesEntry_any {s : State} {p : Port} {bytes : List Byte} {L : LaneId} (h : s.hearsSamples p bytes L) :
    ∃ vs : List (Option Int), samplesEntry (s.port p) (byteAt bytes 2) (framePayload bytes) =
      ⟨fieldAt bytes 8 4, vs, false⟩ ∧ vs.length = sampleCount (framePayload bytes) := by
  by_cases hb : (byteAt bytes 2).getLsbD 0 = true
  · exact ⟨_, samplesEntry_bad h hb, List.length_replicate⟩
  · exact ⟨_, samplesEntry_clear h (by simpa using hb), by rw [List.length_map, PortRec.words_length]⟩

/-- The second clause of O8: a frame wholly before the fill point. -/
theorem samples_all_duplicate (s : State) (p : Port) (bytes : List Byte) (L : LaneId)
    (hears : s.hearsSamples p bytes L) :
    let l := s.lane L
    l.source = p → l.state = .active → l.held = false → l.landing = [] →
    (l.canPlace = true ∨ l.fill = 4294967296) → l.fill ≤ 4294967296 →
    fieldAt bytes 8 4 + sampleCount (framePayload bytes) ≤ l.fill →
    exec (.samplesFrame p bytes) s = .next (({ s with events := s.events + 1 } : State).setLane L
      { l with counters := l.counters.set 11 (min (l.counters[11] + 1) 4294967295) }).grant := by
  intro l hsrc hact hheld hland hcan htop hlast
  obtain ⟨vs, hentry, hlen⟩ := samplesEntry_any hears
  have hpos := sampleCount_pos (framePayload bytes)
  have hle := sampleCount_le (framePayload bytes)
  have htake : l.takesFrame = true := (Lane.takesFrame_iff l).2 hcan
  obtain ⟨k, hk⟩ : ∃ k, 256 * (l.ringSize + 2) = vs.length + (k + 1) :=
    ⟨256 * (l.ringSize + 2) - vs.length - 1, by omega⟩
  have hfill : ((s.event.count L .duplicate).lane L).fill = l.fill := by rw [State.count_lane]; rfl
  have hplace : s.event.placeFrame L ⟨fieldAt bytes 8 4, vs, false⟩ = (s.event.count L .duplicate, none) := by
    have hne : vs ≠ [] := List.ne_nil_of_length_pos (by omega)
    rw [State.placeFrame_behind (show fieldAt bytes 8 4 < l.fill by omega) rfl hne]
    change placeRun L (256 * (l.ringSize + 2)) _ _ = _
    have htrim := placeRun_trim (s := s.event.count L .duplicate) vs [] (k + 1) (fieldAt bytes 8 4) false
      (by rw [hfill, hlen]; exact hlast)
    rw [List.append_nil] at htrim
    rw [hk, htrim, placeRun_nil]
  have hplaced := State.samplesFor_placed (s := s.event) hsrc hact hheld hland htake (by simp only [hlen]; omega) hplace
  rw [exec_samplesFrame hears, hentry]
  exact congrArg (fun t : State => Host.Outcome.next t.grant) hplaced

/-- A frame of valid samples that begins before the fill point and does not complete the block. -/
theorem State.placeFrame_trimmed {s : State} {L : LaneId} {pos : Nat} {xs : List Int}
    (hpos : pos < (s.lane L).fill) (hend : (s.lane L).fill < pos + xs.length) (hlen : xs.length ≤ 256)
    (hl : (s.lane L).Takes (pos + xs.length - (s.lane L).fill))
    (hin : ((s.lane L).fill - (s.lane L).start) % 256 + (pos + xs.length - (s.lane L).fill) < 256)
    (hp : (s.lane L).piece = none) (hg : (s.lane L).gapStop = none) :
    s.placeFrame L ⟨pos, xs.map some, false⟩ = (s.put L (s.store.putRun (s.lane L).cell (s.lane L).fill
        ((xs.drop ((s.lane L).fill - pos)).map some))
      ((Lane.advance .placed)^[pos + xs.length - (s.lane L).fill] ((s.lane L).count .duplicate)), none) := by
  set l := s.lane L with hlane
  set d := l.fill - pos
  have hcount : (s.count L .duplicate).lane L = l.count .duplicate := State.count_lane ..
  have hsplit : xs.map some = (xs.take d).map some ++ ((xs.drop d).map some ++ []) := by
    rw [List.append_nil, ← List.map_append, List.take_append_drop]
  have htake : ((xs.take d).map some : List (Option Int)).length = d := by
    rw [List.length_map, List.length_take]
    omega
  have hdrop : (xs.drop d).length = pos + xs.length - l.fill := by
    rw [List.length_drop]
    omega
  obtain ⟨k, hk⟩ : ∃ k, 256 * (l.ringSize + 2) = d + ((xs.drop d).length + (k + 1)) :=
    ⟨256 * (l.ringSize + 2) - d - (xs.drop d).length - 1, by omega⟩
  have hfill : pos + d = ((s.count L .duplicate).lane L).fill := by
    rw [hcount]
    change pos + d = l.fill
    omega
  have htrim := placeRun_trim (L := L) (s := s.count L .duplicate) ((xs.take d).map some)
    ((xs.drop d).map some ++ []) ((xs.drop d).length + (k + 1)) pos false (by rw [htake, hfill])
  have hrun := placeRun_valid (L := L) (s := s.count L .duplicate) (xs.drop d)
    (by rw [hcount, hdrop]; exact ⟨hl.opened, hl.start, hl.final, hl.inRing, hl.filling, hl.room, hl.top⟩)
    (by rw [hcount, hdrop]; exact hin) (by rw [hcount]; exact hp) (by rw [hcount]; exact hg) (k + 1) [] false
  rw [htake, hfill] at htrim
  rw [State.placeFrame_behind hpos rfl (by rw [ne_eq, List.map_eq_nil_iff, ← List.length_eq_zero_iff]; omega),
    ← hlane, hk, hsplit, htrim, hrun, placeRun_nil, hcount, hdrop]
  have hput : s.count L .duplicate = s.put L s.store (l.count .duplicate) := rfl
  rw [hput, State.put_put]
  rfl

/-- The third clause of O8: a frame that begins before the fill point and ends beyond it, within the block. -/
theorem samples_trimmed (s : State) (p : Port) (bytes : List Byte) (L : LaneId) (hwf : s.storeWf)
    (hears : s.hearsSamples p bytes L) :
    let l := s.lane L
    let payload := framePayload bytes
    let n := sampleCount payload
    let pos := fieldAt bytes 8 4
    let xs := decodeWords (s.port p).width (s.port p).order n (payload.drop 5)
    l.source = p → (byteAt bytes 2).getLsbD 0 = false → pos < l.fill → l.fill < pos + n →
    l.takesWithinBlock (pos + n - l.fill) →
    ∃ t : State, exec (.samplesFrame p bytes) s = .next t.grant ∧
      t.lane L = { l with
        fill := pos + n
        counters := (l.counters.set 0 (min (l.counters[0] + (pos + n - l.fill)) 4294967295)).set 11
          (min (l.counters[11] + 1) 4294967295) } ∧
      (∀ M, M ≠ L → t.lane M = s.lane M) ∧ (∀ q, t.port q = s.port q) ∧ t.engine = s.engine ∧
      (∀ i x, xs[i]? = some x → l.fill ≤ pos + i →
        Cells.read 0 (l.cell (pos + i)) t.store.raw = x ∧
        Cells.read false (l.cell (pos + i)) t.store.missing = false) ∧
      ∀ a, (∀ i, i < n → l.fill ≤ pos + i → a ≠ l.cell (pos + i)) →
        Cells.read 0 a t.store.raw = Cells.read 0 a s.store.raw ∧
        Cells.read false a t.store.missing = Cells.read false a s.store.missing := by
  intro l payload n pos xs hsrc hb hbefore hbeyond hl
  have hlen : xs.length = n := decodeWords_length _ _ _ _
  have htakes := hl.takes
  obtain ⟨hact, hheld, hland, hpiece, hstop, -, -, -, -, hroom, htop⟩ := hl
  have hdrop : (xs.drop (l.fill - pos)).length = pos + n - l.fill := by
    rw [List.length_drop, hlen]
    omega
  have hplace := State.placeFrame_trimmed (s := s.event) (L := L) (xs := xs) hbefore (by rw [hlen]; exact hbeyond)
    (by rw [hlen]; exact sampleCount_le _) (by rw [hlen]; exact htakes) (by rw [hlen]; exact hroom) hpiece hstop
  have hone : l.Takes (0 + 1) := htakes.mono (by omega)
  have hplaced := State.samplesFor_placed (s := s.event) hsrc hact hheld hland hone.takesFrame
    (by simp only [List.length_map, hlen]; omega) hplace
  obtain ⟨hread, hother⟩ := SampleStore.putRun_valid (cell := l.cell) (m := l.fill) (xs := xs.drop (l.fill - pos))
    (st := s.store) hwf fun i j hi hj =>
      Lane.cell_inj_within htakes.start (by rw [hdrop]; exact htakes.room) hi hj
  have hstart : exec (.samplesFrame p bytes) s = .next (s.event.samplesFor p L ⟨pos, xs.map some, false⟩).grant := by
    rw [exec_samplesFrame hears, samplesEntry_clear hears hb]
    rfl
  refine ⟨_, hstart.trans (congrArg (fun t : State => Host.Outcome.next t.grant) hplaced), ?_,
    fun M hM => State.put_other _ _ _ _ hM, fun q => ?_, rfl, fun i x hx hi => ?_, fun a ha => ?_⟩
  · rw [State.put_lane, hlen]
    change (Lane.advance .placed)^[pos + n - l.fill] (l.count .duplicate) = _
    obtain ⟨k, hk⟩ := Nat.exists_eq_add_of_le hbeyond.le
    have hcounters : (l.count .duplicate).counters.set 0 (min ((l.count .duplicate).counters[0] + k) 4294967295) =
        (l.counters.set 0 (min (l.counters[0] + k) 4294967295)).set 11 (min (l.counters[11] + 1) 4294967295) := by
      have hzero : (l.count .duplicate).counters[0] = l.counters[0] :=
        Vector.getElem_set_ne (i := 11) (by decide) (by decide) (by decide)
      rw [hzero]
      exact Vector.set_comm _ _ (by decide)
    rw [hk, Nat.add_sub_cancel_left, ← hcounters]
    exact Lane.advance_iterate .placed (by omega) _
  · rw [State.put_port, State.port_event]
  · have := hread (i - (l.fill - pos)) x (by rw [List.getElem?_drop, ← hx]; congr 1; omega)
    rwa [show l.fill + (i - (l.fill - pos)) = pos + i by omega] at this
  · refine hother a fun i hi => ?_
    have := ha (l.fill - pos + i) (by omega) (by omega)
    rwa [show pos + (l.fill - pos + i) = l.fill + i by omega] at this

/-! ### Held lanes -/

/-- The last clause of O8: a frame for a held lane that cannot place it. -/
theorem samples_join_landing (s : State) (p : Port) (bytes : List Byte) (L : LaneId)
    (hears : s.hearsSamples p bytes L) :
    let l := s.lane L
    let payload := framePayload bytes
    let n := sampleCount payload
    let pos := fieldAt bytes 8 4
    let xs := decodeWords (s.port p).width (s.port p).order n (payload.drop 5)
    l.source = p → l.state = .active → l.held = true → l.afterHold ≠ 4 →
    (l.landing ≠ [] ∨ (l.canPlace = false ∧ l.fill ≠ 4294967296)) → pos + n ≤ 4294967296 →
    exec (.samplesFrame p bytes) s = .next (({ s with events := s.events + 1 } : State).setLane L
      { l with
        afterHold := l.afterHold + 1
        landing := l.landing ++ [{
          start := pos
          samples := if (byteAt bytes 2).getLsbD 0 then xs.map fun _ => none else xs.map some
          resumed := false }] }).grant := by
  intro l payload n pos xs hsrc hact hheld hafter hwait htop
  set e : Landed := ⟨pos, if (byteAt bytes 2).getLsbD 0 then xs.map fun _ => none else xs.map some, false⟩ with he
  have hentry : samplesEntry (s.port p) (byteAt bytes 2) (framePayload bytes) = e := by
    rw [he, show pos = fieldAt bytes 8 4 from rfl, ← samplesEntry_start hears]
    rfl
  have hlen : e.samples.length = n := by
    simp only [he]
    split <;> rw [List.length_map] <;> exact decodeWords_length _ _ _ _
  set u := s.event.setLane L { l with afterHold := l.afterHold + 1 } with hu
  have hulane : u.lane L = { l with afterHold := l.afterHold + 1 } := State.lane_setLane_same ..
  have hcut : u.cutFrame L e = (u, e) := if_neg (Nat.not_lt.mpr (by rw [hlen]; exact htop))
  have hnot : ((u.lane L).landing.isEmpty && (u.lane L).takesFrame) = false := by
    rw [hulane]
    rcases hwait with h | ⟨hc, hf⟩
    · rw [List.isEmpty_eq_false_iff.2 h, Bool.false_and]
    · have : ({ l with afterHold := l.afterHold + 1 } : Lane).takesFrame = false := by
        rw [Bool.eq_false_iff, ne_eq, Lane.takesFrame_iff, not_or]
        exact ⟨by rw [Bool.not_eq_true]; exact hc, hf⟩
      rw [this, Bool.and_false]
  have haccept : u.acceptFrame L e = u.setLanding L (l.landing ++ [e]) := by
    rw [State.acceptFrame, hnot, hulane]
    rfl
  have hfor : s.event.samplesFor p L e = (u.cutFrame L e).1.acceptFrame L (u.cutFrame L e).2 := by
    have h1 : ¬(l.state = .closed ∨ l.source ≠ p) := by simp [hact, hsrc]
    have h2 : ¬l.state = .draining := by simp [hact]
    have h3 : ¬(l.held = true ∧ l.afterHold = Config.afterHoldMax) := fun h => hafter h.2
    unfold State.samplesFor
    rw [State.lane_event, if_neg h1, if_neg h2, if_neg h3, if_pos hheld]
  rw [exec_samplesFrame hears, hentry, hfor, hcut, haccept, State.setLanding, State.modLane, hulane, hu,
    State.setLane_setLane]
  rfl

end Sys2Proof.Machine

/-! PROOF. Frames that complete a block (R15): the ring turns to a FREE slot, or the lane is held and a HOLD entered
(R18). The statement O9, and the clause of O8 about the FREE slot. -/

namespace Sys2Proof.Machine
open Sys2Proof

/-! ### To the block's end -/

theorem Lane.Takes.advance_iterate {c : Ctr} {n k : Nat} {l : Lane} (h : l.Takes (n + k))
    (hin : (l.fill - l.start) % 256 + n < 256) : ((Lane.advance c)^[n] l).Takes k := by
  induction n generalizing l with
  | zero => simpa using h
  | succ n ih =>
    have h' : l.Takes (n + k + 1) := by rwa [Nat.add_right_comm] at h
    have hstep := h'.step (by omega) (l.advance_sameSlots c) rfl
    rw [Function.iterate_succ_apply]
    refine ih hstep ?_
    have := h.start
    simp only [Lane.advance, Lane.count]
    omega

/-- Valid samples up to the block's end: the ring turns. -/
theorem placeRun_block {L : LaneId} {ws : List Int} {s : State} (hl : (s.lane L).Takes ws.length)
    (hend : ((s.lane L).fill - (s.lane L).start) % 256 + ws.length = 256) (hp : (s.lane L).piece = none)
    (hg : (s.lane L).gapStop = none) (k : Nat) (vs : List (Option Int)) (r : Bool) :
    placeRun L (ws.length + k) s ⟨(s.lane L).fill, ws.map some ++ vs, r⟩ =
      placeRun L k ((s.put L (s.store.putRun (s.lane L).cell (s.lane L).fill (ws.map some))
        ((Lane.advance .placed)^[ws.length] (s.lane L))).turnRing L) ⟨(s.lane L).fill + ws.length, vs, r⟩ := by
  rcases List.eq_nil_or_concat ws with rfl | ⟨ys, x, rfl⟩
  · simp only [List.length_nil] at hend
    omega
  simp only [List.concat_eq_append, List.length_append, List.length_singleton] at hl hend ⊢
  set l := s.lane L with hlane
  have hin : (l.fill - l.start) % 256 + ys.length < 256 := by omega
  have hlast := hl.advance_iterate (c := .placed) hin
  have hrun := placeRun_valid (L := L) (s := s) ys (hl.mono (Nat.le_succ _)) hin hp hg (1 + k) (some x :: vs) r
  set t := s.put L (s.store.putRun l.cell l.fill (ys.map some)) ((Lane.advance .placed)^[ys.length] l) with ht
  have htl : t.lane L = (Lane.advance .placed)^[ys.length] l := State.put_lane ..
  have hfill : (t.lane L).fill = l.fill + ys.length := by rw [htl, Lane.advance_iterate_fill]
  have hstart : (t.lane L).start = l.start := by rw [htl, Lane.advance_iterate_fill]
  have hpt : (t.lane L).piece = none := by rw [htl, Lane.advance_iterate_fill]; exact hp
  have hgt : (t.lane L).gapStop = none := by rw [htl, Lane.advance_iterate_fill]; exact hg
  have hat := placeRun_at (L := L) (s := t) (by rw [htl]; exact hlast.canPlace) k (some x) vs r
  have hone : t.placeOne L (some x) = (t.put L (t.store.putRun (t.lane L).cell (t.lane L).fill [some x])
      ((t.lane L).advance .placed)).turnRing L := by
    rw [State.placeOne_valid hpt hgt]
    refine if_pos ?_
    have := hl.start
    rw [hfill, hstart]
    omega
  have hcell : (t.lane L).cell = l.cell := by
    rw [htl, Lane.advance_iterate_fill]
    rfl
  have hstore : t.store.putRun (t.lane L).cell (t.lane L).fill [some x] =
      s.store.putRun l.cell l.fill ((ys ++ [x]).map some) := by
    rw [hcell, hfill, List.map_append, SampleStore.putRun_append, List.length_map]
    rfl
  have hadvance : (t.lane L).advance .placed = (Lane.advance .placed)^[ys.length + 1] l := by
    rw [htl, Function.iterate_succ_apply']
  rw [hone, hstore, hadvance, ht, State.put_put, hfill] at hat
  rw [List.map_append, List.append_assoc, Nat.add_assoc]
  refine hrun.trans ?_
  rw [Nat.add_comm 1 k]
  exact hat.trans (by rw [List.map_append, Nat.add_assoc])

theorem State.turnRing_free {s : State} {L : LaneId} (ht : (s.lane L).fill < 4294967296)
    (hf : (s.lane L).fillSlotFree = true) : s.turnRing L = s.setLane L (s.lane L).openFillSlot := by
  have hne : (s.lane L).fill ≠ Config.topPos := ht.ne
  simp only [State.turnRing, hne, hf, if_false, if_true]

theorem State.turnRing_hold {s : State} {L : LaneId} (ht : (s.lane L).fill < 4294967296)
    (hf : (s.lane L).fillSlotFree = false) (hh : (s.lane L).held = false) : s.turnRing L =
      (s.setLane L { s.lane L with held := true, afterHold := 0 }).enterFlow L true := by
  have hne : (s.lane L).fill ≠ Config.topPos := ht.ne
  simp only [State.turnRing, hne, hf, hh, if_false, Bool.false_eq_true]

/-! ### HOLD (O9) -/

/-- The block at the fill point ends where the samples do. -/
theorem State.placeFrame_block {s : State} {L : LaneId} {xs : List Int} (hl : (s.lane L).Takes xs.length)
    (hend : ((s.lane L).fill - (s.lane L).start) % 256 + xs.length = 256) (hp : (s.lane L).piece = none)
    (hg : (s.lane L).gapStop = none) (r : Bool) : s.placeFrame L ⟨(s.lane L).fill, xs.map some, r⟩ =
      ((s.put L (s.store.putRun (s.lane L).cell (s.lane L).fill (xs.map some))
        ((Lane.advance .placed)^[xs.length] (s.lane L))).turnRing L, none) := by
  obtain ⟨k, hk⟩ : ∃ k, 256 * ((s.lane L).ringSize + 2) = xs.length + (k + 1) :=
    ⟨256 * ((s.lane L).ringSize + 2) - xs.length - 1, by omega⟩
  rw [State.placeFrame_at rfl, hk, ← List.append_nil (xs.map some), placeRun_block hl hend hp hg, placeRun_nil,
    List.append_nil]

/-- Settles O9: the ring's next entry is the oldest unreleased block's, so the ring turns to a HOLD. -/
theorem holdIsSentWhenTheRingIsFull : Obligations.HoldIsSentWhenTheRingIsFull := by
  intro s p bytes L hears l n hsrc hact hheld hland hpiece hstop hstart hfinal hin hfilling hend htop hring hb hpos
  have hlen : ((s.port p).words (framePayload bytes)).length = n := PortRec.words_length _ _
  set xs := (s.port p).words (framePayload bytes)
  have hn : 0 < n := sampleCount_pos _
  have htakes : l.Takes n := ⟨by rw [hact]; decide, hstart, hfinal, hin, hfilling, hend.le, htop.le⟩
  have hone : l.Takes (0 + 1) := htakes.mono hn
  have hplace := State.placeFrame_block (s := s.event) (L := L) (xs := xs) (by rw [hlen]; exact htakes)
    (by rw [hlen]; exact hend) hpiece hstop false
  have hplaced := State.samplesFor_placed (s := s.event) hsrc hact hheld hland hone.takesFrame
    (by simp only [List.length_map, hlen]; exact htop.le) hplace
  have hexec : exec (.samplesFrame p bytes) s = .next (s.event.samplesFor p L ⟨l.fill, xs.map some, false⟩).grant := by
    rw [exec_samplesFrame hears, samplesEntry_clear hears hb, hpos]
  set u := s.event.put L (s.store.putRun l.cell l.fill (xs.map some)) ((Lane.advance .placed)^[xs.length] l) with hu
  have hul : u.lane L = { l with
      fill := l.fill + n
      counters := l.counters.set 0 (min (l.counters[0] + n) 4294967295) } := by
    rw [hu, State.put_lane, hlen]
    exact Lane.advance_iterate .placed hn l
  have hfree : (u.lane L).fillSlotFree = false := by
    have hout : (u.lane L).inRing ((u.lane L).ord (u.lane L).fill) = false := by
      have hord : (l.fill + n - l.start) / 256 = (l.fill - l.start) / 256 + 1 := by omega
      rw [hul]
      change (decide (l.oldest ≤ (l.fill + n - l.start) / 256) &&
        decide ((l.fill + n - l.start) / 256 < l.oldest + l.ring.length)) = false
      rw [hord, hring]
      simp [Lane.ord, Config.blockLen]
    simp [Lane.fillSlotFree, Lane.mayFill, hout]
  have hturn : u.turnRing L = (u.setLane L { u.lane L with held := true, afterHold := 0 }).enterFlow L true :=
    State.turnRing_hold (by rw [hul]; exact htop) hfree (by rw [hul]; exact hheld)
  have hport : ∀ q, u.port q = s.port q := fun q => by rw [hu, State.put_port, State.port_event]
  have hup : (s.port p).link = .up := hears.1
  refine ⟨u.turnRing L, hexec.trans (congrArg (fun t : State => Host.Outcome.next t.grant) hplaced), ?_,
    fun M hM => ?_, ?_, ?_⟩
  · rw [hturn, State.enterFlow, State.lane_modPort, State.lane_setLane_same, hul]
  · rw [hturn, State.enterFlow, State.lane_modPort, State.lane_setLane_ne _ _ _ _ hM, hu,
      State.put_other _ _ _ _ hM]
    rfl
  · rw [hturn, State.enterFlow]
    simp only [State.lane_setLane_same, State.port_modPort_same, State.port_setLane, hport, hup, if_true, hul,
      show l.source = p from hsrc]
  · rw [hturn, State.enterFlow]
    simp only [State.lane_setLane_same, State.port_modPort_other, State.port_setLane, hport, hul,
      show l.source = p from hsrc]

/-! ### Over the block's end into a FREE slot -/

theorem Lane.block_setBlock_self {l : Lane} (hb : l.blocks.length = l.ring.length) (hr : 0 < l.ring.length) (j : Nat)
    (b : Block) : (l.setBlock j b).block j = b := by
  have hlt : l.entryOf j < l.blocks.length := by
    rw [hb]
    exact Nat.mod_lt _ hr
  have hentry : (l.setBlock j b).entryOf j = l.entryOf j := rfl
  rw [Lane.block, hentry]
  simp [Lane.setBlock, List.getElem?_set_self hlt]

theorem Lane.advance_iterate_blocks (c : Ctr) (n : Nat) (l : Lane) (bs : List Block) :
    (Lane.advance c)^[n] { l with blocks := bs } = { (Lane.advance c)^[n] l with blocks := bs } := by
  induction n generalizing l with
  | zero => rfl
  | succ n ih =>
    rw [Function.iterate_succ_apply, Function.iterate_succ_apply]
    exact ih (l.advance c)

/-- A FREE slot taken up is the FILLING block at the fill point, with all its positions to come. -/
theorem Lane.Takes.openFillSlot {l : Lane} {n : Nat} (hopen : l.state ≠ .closed) (hstart : l.start ≤ l.fill)
    (hfinal : l.final = none) (hin : l.inRing (l.ord l.fill) = true) (hb : l.blocks.length = l.ring.length)
    (hr : 0 < l.ring.length) (hmod : (l.fill - l.start) % 256 = 0) (hn : n ≤ 256) (htop : l.fill + n ≤ 4294967296) :
    l.openFillSlot.Takes n := by
  have hblock := Lane.block_setBlock_self hb hr (l.ord l.fill) { state := .filling }
  refine ⟨hopen, hstart, hfinal, hin, ?_, ?_, htop⟩
  · exact congrArg Block.state hblock
  · change (l.fill - l.start) % 256 + n ≤ 256
    omega

/-- The clause of O8 about a frame that runs over the block's end into a FREE slot. -/
theorem samples_into_free_slot (s : State) (p : Port) (bytes : List Byte) (L : LaneId) (hwf : s.storeWf)
    (hears : s.hearsSamples p bytes L) :
    let l := s.lane L
    let payload := framePayload bytes
    let n := sampleCount payload
    let xs := decodeWords (s.port p).width (s.port p).order n (payload.drop 5)
    let j := l.ord l.fill
    l.source = p → (byteAt bytes 2).getLsbD 0 = false → fieldAt bytes 8 4 = l.fill →
    l.takesWithinBlock 0 → l.ringAsOpened → l.inRing (j + 1) = true → (l.block (j + 1)).state = .free →
    256 ≤ (l.fill - l.start) % 256 + n → l.fill + n < 4294967296 →
    ∃ t : State, exec (.samplesFrame p bytes) s = .next t.grant ∧
      t.lane L = { l with
        fill := l.fill + n
        counters := l.counters.set 0 (min (l.counters[0] + n) 4294967295)
        blocks := (l.setBlock (j + 1) { state := .filling }).blocks } ∧
      (∀ M, M ≠ L → t.lane M = s.lane M) ∧ (∀ q, t.port q = s.port q) ∧ t.engine = s.engine ∧
      (∀ i x, xs[i]? = some x →
        Cells.read 0 (l.cell (l.fill + i)) t.store.raw = x ∧
        Cells.read false (l.cell (l.fill + i)) t.store.missing = false) ∧
      ∀ a, (∀ i, i < n → a ≠ l.cell (l.fill + i)) →
        Cells.read 0 a t.store.raw = Cells.read 0 a s.store.raw ∧
        Cells.read false a t.store.missing = Cells.read false a s.store.missing := by
  intro l payload n xs j hsrc hb hpos hl hring hin hfree hover htop
  obtain ⟨hact, hheld, hland, hpiece, hstop, hstart, hfinal, hinj, hfilling, hroom, -⟩ := hl
  obtain ⟨hsize, hnodup, hblocks⟩ := hring
  have hlen : xs.length = n := decodeWords_length _ _ _ _
  have hn : 0 < n := sampleCount_pos _
  have hle : n ≤ 256 := sampleCount_le _
  -- the samples of the block that completes, and those of the next
  obtain ⟨a, hoff, ha⟩ : ∃ a, (l.fill - l.start) % 256 + a = 256 ∧ 0 < a :=
    ⟨256 - (l.fill - l.start) % 256, by omega, by omega⟩
  have hys : (xs.take a).length = a := by rw [List.length_take]; omega
  have hzs : (xs.drop a).length = n - a := by rw [List.length_drop, hlen]
  have htakes : l.Takes a := ⟨by rw [hact]; decide, hstart, hfinal, hinj, hfilling, hoff.le, by omega⟩
  set u := s.event.put L (s.store.putRun l.cell l.fill ((xs.take a).map some)) ((Lane.advance .placed)^[a] l) with hu
  have hul : u.lane L = { l with fill := l.fill + a, counters := ((Lane.advance .placed)^[a] l).counters } := by
    rw [hu, State.put_lane]
    exact Lane.advance_iterate_fill _ _ _
  have hord : (u.lane L).ord (u.lane L).fill = j + 1 := by
    rw [hul]
    simp only [Lane.ord, Config.blockLen, j]
    omega
  have hslot : (u.lane L).fillSlotFree = true := by
    have hopen : (u.lane L).isOpen = true := by rw [Lane.isOpen_iff, hul, hact]; decide
    have htopu : (u.lane L).fill < Config.topPos := by
      rw [hul, Config.topPos]
      change l.fill + a < 4294967296
      omega
    have hfin : (u.lane L).final = none := by rw [hul]; exact hfinal
    have hinu : (u.lane L).inRing (j + 1) = true := by rw [hul]; exact hin
    have hblk : ((u.lane L).block (j + 1)).state = .free := by rw [hul]; exact hfree
    simp [Lane.fillSlotFree, Lane.mayFill, hord, hopen, htopu, hfin, hinu, hblk]
  set v := u.setLane L (u.lane L).openFillSlot with hv
  have hturn : u.turnRing L = v := State.turnRing_free (by rw [hul]; change l.fill + a < _; omega) hslot
  have hvl : v.lane L = (u.lane L).openFillSlot := State.lane_setLane_same ..
  have hvl' : v.lane L = { (Lane.advance .placed)^[a] l with
      blocks := (l.setBlock (j + 1) { state := .filling }).blocks } := by
    rw [hvl, Lane.openFillSlot, hord, hul, Lane.advance_iterate_fill]
    rfl
  have hvtakes : (v.lane L).Takes (xs.drop a).length := by
    rw [hvl]
    refine Lane.Takes.openFillSlot ?_ ?_ ?_ (by rw [hord, hul]; exact hin) ?_ ?_ ?_ (by omega) ?_
    · rw [hul, hact]; decide
    · rw [hul]; exact hstart.trans (Nat.le_add_right _ _)
    · rw [hul]; exact hfinal
    · rw [hul]; exact hblocks
    · rw [hul]; exact (Nat.zero_lt_succ 7).trans_le hsize
    · rw [hul]
      change (l.fill + a - l.start) % 256 = 0
      omega
    · rw [hul, hzs]
      change l.fill + a + (n - a) ≤ _
      omega
  have hvfill : (v.lane L).fill = l.fill + a := by rw [hvl, hul]; rfl
  have hvstart : (v.lane L).start = l.start := by rw [hvl, hul]; rfl
  have hvpiece : (v.lane L).piece = none := by rw [hvl, hul]; exact hpiece
  have hvstop : (v.lane L).gapStop = none := by rw [hvl, hul]; exact hstop
  set t := v.put L (v.store.putRun (v.lane L).cell (v.lane L).fill ((xs.drop a).map some))
    ((Lane.advance .placed)^[(xs.drop a).length] (v.lane L)) with ht
  have hplace : s.event.placeFrame L ⟨l.fill, xs.map some, false⟩ = (t, none) := by
    obtain ⟨k, hk⟩ : ∃ k, 256 * (l.ringSize + 2) = a + ((xs.drop a).length + (k + 1)) :=
      ⟨256 * (l.ringSize + 2) - a - (xs.drop a).length - 1, by omega⟩
    have h1 := placeRun_block (L := L) (s := s.event) (ws := xs.take a) (by rw [hys]; exact htakes)
      (by rw [hys]; exact hoff) hpiece hstop ((xs.drop a).length + (k + 1)) ((xs.drop a).map some) false
    have h2 := placeRun_valid (L := L) (s := v) (xs.drop a) hvtakes
      (by rw [hvfill, hvstart, hzs]; omega) hvpiece hvstop (k + 1) [] false
    rw [hys, ← List.map_append, List.take_append_drop] at h1
    rw [List.append_nil, hvfill, placeRun_nil] at h2
    rw [State.placeFrame_at rfl]
    change placeRun L (256 * (l.ringSize + 2)) _ _ = _
    rw [hk]
    refine h1.trans (Eq.trans ?_ (h2.trans ?_))
    · exact congrArg (fun w => placeRun L _ w _) hturn
    · rw [ht, hvfill]
  have hplaced := State.samplesFor_placed (s := s.event) hsrc hact hheld hland
    (htakes.mono (k := 0 + 1) ha).takesFrame (by simp only [List.length_map, hlen]; exact htop.le) hplace
  have hexec : exec (.samplesFrame p bytes) s = .next (s.event.samplesFor p L ⟨l.fill, xs.map some, false⟩).grant := by
    rw [exec_samplesFrame hears, samplesEntry_clear hears hb, hpos]
    rfl
  have hstore : t.store = s.store.putRun l.cell l.fill (xs.map some) := by
    have hcell : (v.lane L).cell = l.cell := by rw [hvl, hul]; rfl
    have hrun := SampleStore.putRun_append (cell := l.cell) l.fill ((xs.take a).map some) ((xs.drop a).map some) s.store
    rw [← List.map_append, List.take_append_drop, List.length_map, hys] at hrun
    rw [hrun, ht, State.put_store, hcell, hvfill]
    rfl
  obtain ⟨hread, hother⟩ := SampleStore.putRun_valid (cell := l.cell) (m := l.fill) (xs := xs) hwf
    fun i i' hi hi' h => by
      have := Lane.cell_inj_ring hnodup (show l.start ≤ l.fill + i by omega) (show l.start ≤ l.fill + i' by omega)
        (by omega) (by omega) h
      omega
  rw [hlen] at hother
  refine ⟨t, hexec.trans (congrArg (fun t : State => Host.Outcome.next t.grant) hplaced), ?_, fun M hM => ?_,
    fun q => ?_, rfl, by rw [hstore]; exact hread, by rw [hstore]; exact hother⟩
  · rw [ht, State.put_lane, hvl', Lane.advance_iterate_blocks, ← Function.iterate_add_apply, hzs,
      Nat.sub_add_cancel (by omega), Lane.advance_iterate .placed hn]
    rfl
  · rw [ht, State.put_other _ _ _ _ hM, hv, State.lane_setLane_ne _ _ _ _ hM, hu, State.put_other _ _ _ _ hM]
    rfl
  · rw [ht, State.put_port, hv, State.port_setLane, hu, State.put_port, State.port_event]

end Sys2Proof.Machine

/-! PROOF. GO, and the placing of a landed frame with the GO inside the same event (R17, R19). The statement O46. -/

namespace Sys2Proof.Machine
open Sys2Proof

/-! ### GO -/

theorem Lane.goDue_iff (l : Lane) : l.goDue = true ↔
    l.held = true ∧ l.state = .active ∧ l.landing = [] ∧ (l.canPlace = true ∨ l.fillSlotFree = true) := by
  simp [Lane.goDue, and_assoc]

/-- GO, in the terms of R163: the flow list changes where the link is up. -/
theorem State.sendGo_eq (s : State) (L : LaneId) : s.sendGo L =
    (s.setLane L { s.lane L with held := false, afterHold := 0 }).setPort (s.lane L).source
      { s.port (s.lane L).source with
        flow := if (s.port (s.lane L).source).link = .up then
            ((s.port (s.lane L).source).flow.filter fun e => e.lane != L) ++
              [{ lane := L, hold := false, fill := (s.lane L).fill }]
          else (s.port (s.lane L).source).flow } := by
  have hport := State.port_setLane s L { s.lane L with held := false, afterHold := 0 } (s.lane L).source
  unfold State.sendGo State.enterFlow
  simp only [State.modLane, State.lane_setLane_same, State.modPort, hport]
  by_cases h : (s.port (s.lane L).source).link = .up
  · rw [if_pos h, if_pos h]
  · rw [if_neg h, if_neg h]

theorem State.sendGo_port (s : State) (L : LaneId) (q : Port) : (s.sendGo L).port q = { s.port q with
    flow := if q = (s.lane L).source ∧ (s.port q).link = .up then
        ((s.port q).flow.filter fun e => e.lane != L) ++ [{ lane := L, hold := false, fill := (s.lane L).fill }]
      else (s.port q).flow } := by
  rw [State.sendGo_eq]
  by_cases hq : q = (s.lane L).source
  · subst hq
    simp only [State.port_setPort_same, true_and]
  · have hother : q = otherPort (s.lane L).source := by
      generalize (s.lane L).source = p at hq
      cases p <;> cases q <;> simp_all [otherPort]
    have hne : ¬(q = (s.lane L).source ∧ (s.port q).link = .up) := fun h => hq h.1
    rw [if_neg hne]
    rw [hother, State.port_setPort_other, State.port_setLane]

theorem exec_go {s : State} {L : LaneId} (h : (s.lane L).goDue = true) : exec (.go L) s = .next (s.event.sendGo L) :=
  State.takePlace_due h (·.sendGo L)

theorem go_effect (s : State) (L : LaneId) :
    let l := s.lane L
    let b := (l.block (l.ord l.fill)).state
    l.held = true → l.state = .active → l.landing = [] → l.fill < 4294967296 → l.final = none →
    l.inRing (l.ord l.fill) = true → (b = .filling ∨ b = .free) →
    exec (.go L) s = .next (({ s with events := s.events + 1 } : State).setLane L
        { l with held := false, afterHold := 0 } |>.setPort l.source
      { s.port l.source with
        flow := if (s.port l.source).link = .up then
            ((s.port l.source).flow.filter fun e => e.lane != L) ++ [{ lane := L, hold := false, fill := l.fill }]
          else (s.port l.source).flow }) := by
  intro l b hheld hact hland htop hfinal hin hb
  have hopen : l.isOpen = true := by rw [Lane.isOpen_iff, hact]; decide
  have hmay : l.mayFill = true := by
    have : l.fill < Config.topPos := htop
    simp [Lane.mayFill, hopen, this, hfinal, hin]
  have hslot : l.canPlace = true ∨ l.fillSlotFree = true := by
    rcases hb with hb | hb
    · exact .inl (by simp [Lane.canPlace, hmay, show (l.block (l.ord l.fill)).state = .filling from hb])
    · exact .inr (by simp [Lane.fillSlotFree, hmay, show (l.block (l.ord l.fill)).state = .free from hb])
  rw [exec_go ((Lane.goDue_iff l).2 ⟨hheld, hact, hland, hslot⟩), State.sendGo_eq, State.port_event]
  rfl

/-! ### The landed frame -/

theorem exec_landingPlacement {s : State} {L : LaneId} (h : (s.lane L).landingDue = true) :
    exec (.landingPlacement L) s = .next ((s.event.placeLanding L).settleLane L) :=
  State.takePlace_due h fun t => (t.placeLanding L).settleLane L

/-- One landed frame that is placed whole leaves the landing buffer empty. -/
theorem State.placeLanding_one {s t : State} {L : LaneId} {e : Landed} (hland : (s.lane L).landing = [e])
    (hslot : (s.lane L).fillSlotFree = false) (htake : (s.lane L).takesFrame = true)
    (hplace : s.placeFrame L e = (t, none)) : s.placeLanding L = t.setLanding L [] := by
  have hopen : s.openSlot L = s := if_neg (by rw [hslot]; decide)
  simp only [State.placeLanding, hopen, hland, placeEntries, htake, hplace, if_true]

/-- What an ACTIVE lane with nothing landed and no slot to take up can have due by itself. -/
theorem State.settleLane_active {t : State} {L : LaneId} (hs : (t.lane L).state = .active)
    (hl : (t.lane L).landing = []) (hslot : (t.lane L).fillSlotFree = false) :
    t.settleLane L = ((t.goIfDue L).discardIfDue L).grant := by
  have hopen : t.openSlot L = t := if_neg (by rw [hslot]; decide)
  have hland : (t.lane L).landingDue = false := by simp [Lane.landingDue, hl]
  have hfinal : (t.lane L).finalDue = false := by simp [Lane.finalDue, hs]
  have hfinish : (t.lane L).finishDue = false := by simp [Lane.finishDue, hs]
  have hdone : (((t.goIfDue L).discardIfDue L).lane L).drainDone = false := by
    have hgo : ((t.goIfDue L).lane L).state = .active := by
      unfold State.goIfDue State.when
      split
      · change ((t.sendGo L).lane L).state = .active
        rw [State.sendGo_eq, State.lane_setPort, State.lane_setLane_same]
        exact hs
      · exact hs
    rw [Bool.eq_false_iff, ne_eq, Lane.drainDone_iff, State.discardIfDue_lane]
    simp [hgo]
  rw [State.settleLane_eq, hopen, State.landIfDue_of_not hland, State.fixIfDue_of_not hfinal,
    State.finishIfDue_of_not hfinish, State.drainIfDue_of_not hdone]

@[simp] theorem State.discardIfDue_store (t : State) (L : LaneId) : (t.discardIfDue L).store = t.store := by
  unfold State.discardIfDue State.when
  split <;> rfl

@[simp] theorem State.discardIfDue_engine (t : State) (L : LaneId) : (t.discardIfDue L).engine = t.engine := by
  unfold State.discardIfDue State.when
  split <;> rfl

theorem State.discardIfDue_other (t : State) {L M : LaneId} (h : M ≠ L) :
    (t.discardIfDue L).lane M = t.lane M := by
  unfold State.discardIfDue State.when
  split
  · exact State.lane_modLane_ne _ _ _ _ h
  · rfl

/-- LANDING_PLACEMENT of one landed frame of valid samples at the fill point, within the block. -/
theorem landingPlacement_effect (s : State) (L : LaneId) (xs : List Int) (resumed : Bool) (hwf : s.storeWf) :
    let l := s.lane L
    let n := xs.length
    l.landing = [{ start := l.fill, samples := xs.map some, resumed := resumed }] → l.held = true →
    ({ l with held := false, landing := [] } : Lane).takesWithinBlock n →
    ∃ t : State, exec (.landingPlacement L) s = .next t.grant ∧
      t.lane L = { l with
        landing := []
        fill := l.fill + n
        held := decide (l.fill + n = 4294967296)
        afterHold := if l.fill + n = 4294967296 then l.afterHold else 0
        counters := (t.lane L).counters
        retiring := (t.lane L).retiring } ∧
      (0 < n → (t.lane L).counters = l.counters.set 0 (min (l.counters[0] + n) 4294967295)) ∧
      (∀ M, M ≠ L → t.lane M = s.lane M) ∧ t.engine = s.engine ∧
      (l.fill + n < 4294967296 → ∀ q, t.port q = { s.port q with
        flow := if q = l.source ∧ (s.port q).link = .up then
            ((s.port q).flow.filter fun e => e.lane != L) ++ [{ lane := L, hold := false, fill := l.fill + n }]
          else (s.port q).flow }) ∧
      (l.fill + n = 4294967296 → ∀ q, t.port q = s.port q) ∧
      (∀ i x, xs[i]? = some x →
        Cells.read 0 (l.cell (l.fill + i)) t.store.raw = x ∧
        Cells.read false (l.cell (l.fill + i)) t.store.missing = false) ∧
      ∀ a, (∀ i, i < n → a ≠ l.cell (l.fill + i)) →
        Cells.read 0 a t.store.raw = Cells.read 0 a s.store.raw ∧
        Cells.read false a t.store.missing = Cells.read false a s.store.missing := by
  intro l n hlanding hheld hl
  have htakes : l.Takes n := ⟨hl.takes.opened, hl.takes.start, hl.takes.final, hl.takes.inRing, hl.takes.filling,
    hl.takes.room, hl.takes.top⟩
  obtain ⟨hact, -, -, hpiece, hstop, -, -, -, -, hroom, htop⟩ := hl
  have htake : l.takesFrame = true := by
    rcases Nat.lt_or_ge l.fill 4294967296 with h | h
    · have hone : l.Takes (0 + 1) := ⟨htakes.opened, htakes.start, htakes.final, htakes.inRing, htakes.filling,
        Nat.mod_lt _ (by decide), h⟩
      exact hone.takesFrame
    · exact (Lane.takesFrame_iff l).2 (.inr (by have := htakes.top; omega))
  have hdue : l.landingDue = true := by
    have hopen : l.isOpen = true := (Lane.isOpen_iff l).2 htakes.opened
    simp [Lane.landingDue, hopen, hlanding, htake]
  set u := s.event.put L (s.store.putRun l.cell l.fill (xs.map some))
    { (Lane.advance .placed)^[n] l with landing := [] } with hu
  have hplaced : s.event.placeLanding L = u := by
    rw [State.placeLanding_one (s := s.event) hlanding htakes.fillSlotFree htake
      (State.placeFrame_within (s := s.event) htakes hroom hpiece hstop resumed), State.setLanding, State.put_modLane]
    rfl
  have hul : u.lane L = { l with
      fill := l.fill + n, landing := [], counters := ((Lane.advance .placed)^[n] l).counters } := by
    rw [hu, State.put_lane]
    exact congrArg (fun m : Lane => { m with landing := [] }) (Lane.advance_iterate_fill .placed n l)
  have hafter : ((Lane.advance .placed)^[n] l).Takes 0 := htakes.advance_iterate (k := 0) hroom
  rw [Lane.advance_iterate_fill] at hafter
  have hut : (u.lane L).Takes 0 := by
    rw [hul]
    exact ⟨hafter.opened, hafter.start, hafter.final, hafter.inRing, hafter.filling, hafter.room, hafter.top⟩
  have hgo : (u.lane L).goDue = true ↔ l.fill + n < 4294967296 := by
    rw [Lane.goDue_iff, hut.fillSlotFree]
    constructor
    · rintro ⟨-, -, -, h | h⟩
      · rw [Lane.canPlace, Lane.mayFill, hul] at h
        simp only [Bool.and_eq_true, decide_eq_true_eq] at h
        exact h.1.1.1.2
      · cases h
    · intro h
      refine ⟨by rw [hul]; exact hheld, by rw [hul]; exact hact, by rw [hul], .inl ?_⟩
      have hone : (u.lane L).Takes (0 + 1) := ⟨hut.opened, hut.start, hut.final, hut.inRing, hut.filling,
        Nat.mod_lt _ (by decide), by rw [hul]; exact h⟩
      exact hone.canPlace
  have hexec : exec (.landingPlacement L) s = .next ((u.goIfDue L).discardIfDue L).grant := by
    rw [exec_landingPlacement hdue, hplaced,
      State.settleLane_active (by rw [hul]; exact hact) (by rw [hul]) hut.fillSlotFree]
  have hport : ∀ q, u.port q = s.port q := fun q => by rw [hu, State.put_port, State.port_event]
  have hother : ∀ M, M ≠ L → u.lane M = s.lane M := fun M hM => by
    rw [hu, State.put_other _ _ _ _ hM]
    rfl
  obtain ⟨hread, hkeep⟩ := SampleStore.putRun_valid (cell := l.cell) (m := l.fill) (xs := xs) hwf
    fun i j hi hj => Lane.cell_inj_within htakes.start htakes.room hi hj
  have hcount : 0 < n → ((Lane.advance .placed)^[n] l).counters =
      l.counters.set 0 (min (l.counters[0] + n) 4294967295) := fun h => by
    rw [Lane.advance_iterate .placed h]
    rfl
  refine ⟨_, hexec, ?_⟩
  rw [State.discardIfDue_engine, State.discardIfDue_store, State.discardIfDue_lane]
  simp only [State.discardIfDue_port]
  rcases Nat.lt_or_eq_of_le htop with h | h
  · have h' : l.fill + n < 4294967296 := h
    have hsent : u.goIfDue L = u.sendGo L := by rw [State.goIfDue, State.when, if_pos (hgo.2 h)]
    have hsl : (u.sendGo L).lane L = { u.lane L with held := false, afterHold := 0 } := by
      rw [State.sendGo_eq, State.lane_setPort, State.lane_setLane_same]
    have hsp : ∀ q, (u.sendGo L).port q = { s.port q with
        flow := if q = l.source ∧ (s.port q).link = .up then
            ((s.port q).flow.filter fun e => e.lane != L) ++ [{ lane := L, hold := false, fill := l.fill + n }]
          else (s.port q).flow } := by
      intro q
      rw [State.sendGo_port, hul, hport]
    rw [hsent]
    refine ⟨?_, fun hn => ?_, fun M hM => ?_, ?_, fun _ => hsp, fun hc => absurd hc h'.ne, ?_, ?_⟩
    · rw [hsl, hul, decide_eq_false h'.ne, if_neg h'.ne]
    · rw [hsl, hul]
      exact hcount hn
    · rw [State.discardIfDue_other _ hM, State.sendGo_eq, State.lane_setPort, State.lane_setLane_ne _ _ _ _ hM,
        hother M hM]
    · rw [State.sendGo_eq, State.setPort_engine]
      rfl
    · rw [State.sendGo_eq, State.setPort_store]
      exact hread
    · rw [State.sendGo_eq, State.setPort_store]
      exact hkeep
  · have h' : l.fill + n = 4294967296 := h
    have hstay : u.goIfDue L = u :=
      State.goIfDue_of_not (by rw [Bool.eq_false_iff, ne_eq, hgo, h']; exact lt_irrefl _)
    rw [hstay]
    refine ⟨?_, fun hn => ?_, fun M hM => ?_, rfl, fun hc => absurd h' hc.ne, fun _ => hport, hread, hkeep⟩
    · rw [hul, decide_eq_true h', if_pos h', ← hheld]
    · rw [hul]
      exact hcount hn
    · rw [State.discardIfDue_other _ hM, hother M hM]

/-- Settles O46: GO by its condition and effect, and the landed frame placed, settled and answered with GO unless the
fill point has reached the top. -/
theorem landingPlacementAndGo : Obligations.LandingPlacementAndGo :=
  ⟨go_effect, landingPlacement_effect⟩

end Sys2Proof.Machine

/-! PROOF. Missing positions at the fill point (R14, R16): the position stored, the anchors before it, and a GAP piece
opened, extended and closed. The first clause of O10, and the clause of O8 about the forward jump. -/

namespace Sys2Proof.Machine
open Sys2Proof

/-! ### Anchors -/

/-- An anchor looks at the lane's geometry and, where the ring still holds the position, at its sample. -/
theorem State.anchorAt_congr {s t : State} {L : LaneId} {pos : Nat} (he : t.events = s.events)
    (hl : (t.lane L).start = (s.lane L).start ∧ (t.lane L).fill = (s.lane L).fill ∧
      (t.lane L).ring = (s.lane L).ring)
    (hr : (s.lane L).start ≤ pos → pos < (s.lane L).fill → (s.lane L).fill ≤ pos + 256 * (s.lane L).ring.length →
      Cells.read 0 ((s.lane L).cell pos) t.store.raw = Cells.read 0 ((s.lane L).cell pos) s.store.raw ∧
      Cells.read false ((s.lane L).cell pos) t.store.missing = Cells.read false ((s.lane L).cell pos) s.store.missing) :
    t.anchorAt L pos = s.anchorAt L pos := by
  obtain ⟨h1, h2, h3⟩ := hl
  have hcell : (t.lane L).cell pos = (s.lane L).cell pos := by
    simp only [Lane.cell, Lane.slotOf, Lane.entryOf, Lane.ord, Lane.ringSize, h1, h3]
  have hsize : (t.lane L).ringSize = (s.lane L).ringSize := congrArg List.length h3
  unfold State.anchorAt State.missingAt State.rawAt
  dsimp only
  rw [hcell, he, h1, h2, hsize]
  by_cases hin : pos < (s.lane L).start ∨ (s.lane L).fill ≤ pos
  · rw [if_pos hin, if_pos hin]
  · rw [if_neg hin, if_neg hin]
    by_cases hlost : pos + Config.blockLen * (s.lane L).ringSize < (s.lane L).fill
    · rw [if_pos hlost, if_pos hlost]
    · have hkept : (s.lane L).fill ≤ pos + 256 * (s.lane L).ring.length := Nat.not_lt.mp hlost
      obtain ⟨hraw, hmiss⟩ := hr (by omega) (by omega) hkept
      rw [hraw, hmiss]

theorem State.anchorBefore_congr {s t : State} {L : LaneId} {st : Nat} (he : t.events = s.events)
    (hl : (t.lane L).start = (s.lane L).start ∧ (t.lane L).fill = (s.lane L).fill ∧
      (t.lane L).ring = (s.lane L).ring)
    (hr : ∀ pos, pos + 1 = st → (s.lane L).start ≤ pos → pos < (s.lane L).fill →
      (s.lane L).fill ≤ pos + 256 * (s.lane L).ring.length →
      Cells.read 0 ((s.lane L).cell pos) t.store.raw = Cells.read 0 ((s.lane L).cell pos) s.store.raw ∧
      Cells.read false ((s.lane L).cell pos) t.store.missing = Cells.read false ((s.lane L).cell pos) s.store.missing) :
    t.anchorBefore L st = s.anchorBefore L st := by
  unfold State.anchorBefore
  by_cases h : st = 0
  · rw [if_pos h, if_pos h]
  · rw [if_neg h, if_neg h]
    exact State.anchorAt_congr he hl (hr (st - 1) (by omega))

/-! ### Records to be had -/

/-- Whether a record can be had looks at the lengths of the lists, the reserves and which lanes are open (R55, R56). -/
theorem State.canTake_congr {s t : State} (h : ∀ M, (t.lane M).isOpen = (s.lane M).isOpen ∧
    (t.lane M).reserve = (s.lane M).reserve ∧ (t.lane M).list.length = (s.lane M).list.length) (L : LaneId) :
    t.canTake L = s.canTake L := by
  have hsum : ∀ f : Lane → Nat, (∀ M, f (t.lane M) = f (s.lane M)) → t.sumLanes f = s.sumLanes f := by
    intro f hf
    simp only [State.sumLanes, hf]
  have hreserved : t.sumLanes Lane.reserved = s.sumLanes Lane.reserved := by
    refine hsum _ fun M => ?_
    obtain ⟨ho, hr, -⟩ := h M
    simp only [Lane.reserved, ho, hr]
  have hcommon : t.sumLanes Lane.commonHeld = s.sumLanes Lane.commonHeld := by
    refine hsum _ fun M => ?_
    obtain ⟨ho, hr, hl⟩ := h M
    simp only [Lane.commonHeld, ho, hr, hl]
  obtain ⟨-, hr, hl⟩ := h L
  unfold State.canTake State.freeCommon State.commonShare
  rw [hreserved, hcommon, hr, hl]

/-! ### A missing position stored -/

/-- The position at the fill point stored as missing and counted; the fill point stands. -/
def State.missed (s : State) (L : LaneId) : State :=
  s.put L (s.store.putRun (s.lane L).cell (s.lane L).fill [none]) ((s.lane L).count .missing)

theorem State.covered_none (s : State) (L : LaneId) :
    s.covered L none = (s.missed L).coverMissing L (s.lane L).fill := by
  have h : ((s.setStore ((s.store.setRaw ((s.lane L).cell (s.lane L).fill) 0).setMissing
      ((s.lane L).cell (s.lane L).fill) true)).count L .missing) = s.missed L := rfl
  rw [← h]
  rfl

section
variable (s : State) (L : LaneId)

@[simp] theorem State.missed_lane : (s.missed L).lane L = (s.lane L).count .missing := State.put_lane ..
@[simp] theorem State.missed_port (q : Port) : (s.missed L).port q = s.port q := State.put_port ..
@[simp] theorem State.missed_events : (s.missed L).events = s.events := rfl
@[simp] theorem State.missed_store :
    (s.missed L).store = s.store.putRun (s.lane L).cell (s.lane L).fill [none] := rfl

theorem State.missed_other {M : LaneId} (h : M ≠ L) : (s.missed L).lane M = s.lane M := State.put_other _ _ _ _ h

theorem State.missed_canTake (M : LaneId) : (s.missed L).canTake M = s.canTake M := by
  refine State.canTake_congr (fun K => ?_) M
  by_cases hK : K = L
  · subst hK
    rw [State.missed_lane]
    exact ⟨rfl, rfl, rfl⟩
  · rw [State.missed_other _ _ hK]
    exact ⟨rfl, rfl, rfl⟩

/-- The stored position is beyond every anchor the ring still holds. -/
theorem State.put_anchorBefore {st : Nat} {l' : Lane} (v : Option Int) (hl : l'.start = (s.lane L).start ∧
    l'.fill = (s.lane L).fill ∧ l'.ring = (s.lane L).ring) (hwf : s.storeWf)
    (h : st = (s.lane L).fill ∨
      (s.lane L).ring.Nodup ∧ (s.lane L).fill + 1 < st + 256 * (s.lane L).ring.length)
    (hst : (s.lane L).start ≤ (s.lane L).fill) :
    (s.put L (s.store.putRun (s.lane L).cell (s.lane L).fill [v]) l').anchorBefore L st = s.anchorBefore L st := by
  refine State.anchorBefore_congr rfl (by rw [State.put_lane]; exact hl) fun pos hpos h1 h2 h3 => ?_
  refine SampleStore.putRun_read_ne hwf fun i hi => ?_
  obtain rfl : i = 0 := by simpa using hi
  rw [Nat.add_zero]
  rcases h with h | ⟨h, hnear⟩
  · have hsucc : (s.lane L).fill = pos + 1 := by omega
    rw [hsucc]
    exact Lane.cell_succ_ne h1
  · intro hc
    have := Lane.cell_inj_ring h h1 hst (by omega) (by omega) hc
    omega

theorem State.missed_anchorBefore {st : Nat} (hwf : s.storeWf)
    (h : st = (s.lane L).fill ∨
      (s.lane L).ring.Nodup ∧ (s.lane L).fill + 1 < st + 256 * (s.lane L).ring.length)
    (hst : (s.lane L).start ≤ (s.lane L).fill) : (s.missed L).anchorBefore L st = s.anchorBefore L st :=
  s.put_anchorBefore L none ⟨rfl, rfl, rfl⟩ hwf h hst

end

/-! ### A new piece -/

theorem State.modLane_id {s : State} {L : LaneId} {f : Lane → Lane} (h : f (s.lane L) = s.lane L) :
    s.modLane L f = s := by
  rw [State.modLane, h, State.setLane_self]

theorem State.coverMissing_outside {s : State} {L : LaneId} (h : (s.lane L).piece = none) (m : Nat) :
    s.coverMissing L m = s.attemptPiece L m none := by
  have hend : (s.lane L).pieceEnd = none := by simp only [Lane.pieceEnd, h]
  simp only [State.coverMissing, hend]

/-- An attempt no stop drops, by the record last up to the position (R40). -/
theorem State.attemptPiece_free {s : State} {L : LaneId} (h : (s.lane L).gapStop = none) (m : Nat)
    (own : Option Nat) : s.attemptPiece L m own =
      match lastUpTo m (s.lane L).list with
      | none => s.openPiece L m
      | some p =>
        if own = some p.start ∨ p.last + 1 < m then s.openPiece L m
        else if p.mergeable && decide (max p.last m + 1 - p.start ≤ Config.maxSpan) then s.reopenPiece L p m
        else s.dropGap L := by
  have hid : s.modLane L (fun l => { l with gapStop := none }) = s :=
    State.modLane_id (by rw [← h])
  simp only [State.attemptPiece, h, Option.any_none, hid]
  rfl

/-- A piece that can have a record. -/
theorem State.takePiece_record {s : State} {L : LaneId} (h : s.canTake L = true) (m : Nat) :
    s.takePiece L m = ((s.modLane L fun l =>
      { l.count .gapPieces with
        list := insertRecord (gapRecord m (s.anchorBefore L m)) l.list
        piece := some (.listed m)
        runEnded := false }).assess).recordTouched L m m := by
  simp only [State.takePiece, h, if_true]

/-- With an empty list and a record to be had, a piece opens. -/
theorem State.coverMissing_opens {s : State} {L : LaneId} (hp : (s.lane L).piece = none)
    (hg : (s.lane L).gapStop = none) (hl : (s.lane L).list = []) (m : Nat) :
    s.coverMissing L m = s.takePiece L m := by
  rw [State.coverMissing_outside hp, State.attemptPiece_free hg, hl]
  simp only [lastUpTo, List.filter_nil, List.getLast?_nil, State.openPiece, hl, startingAfter, List.head?_nil]

/-- The lane with a piece's record taken, but for the flags of the pool. -/
theorem State.takePiece_lane {s : State} {L : LaneId} (h : s.canTake L = true) (m : Nat) :
    Lane.sameButPoolFlags
      { (s.lane L).count .gapPieces with
        list := insertRecord (gapRecord m (s.anchorBefore L m)) (s.lane L).list
        piece := some (.listed m)
        runEnded := false }
      ((s.takePiece L m).lane L) := by
  rw [State.takePiece_record h, State.lane_recordTouched]
  have hflags := State.assess_sameButPoolFlags (s.modLane L fun l =>
      { l.count .gapPieces with
        list := insertRecord (gapRecord m (s.anchorBefore L m)) l.list
        piece := some (.listed m)
        runEnded := false }) L
  rwa [State.lane_modLane_same] at hflags

theorem State.takePiece_other {s : State} {L M : LaneId} (h : s.canTake L = true) (m : Nat) (hM : M ≠ L) :
    (s.lane M).sameButPoolFlags ((s.takePiece L m).lane M) := by
  rw [State.takePiece_record h, State.lane_recordTouched]
  have hflags := State.assess_sameButPoolFlags (s.modLane L fun l =>
      { l.count .gapPieces with
        list := insertRecord (gapRecord m (s.anchorBefore L m)) l.list
        piece := some (.listed m)
        runEnded := false }) M
  rwa [State.lane_modLane_ne _ _ _ _ hM] at hflags

theorem State.takePiece_store {s : State} {L : LaneId} (h : s.canTake L = true) (m : Nat) :
    (s.takePiece L m).store = s.store := by
  rw [State.takePiece_record h, State.recordTouched_store]
  exact (State.assess_rest _).1

/-! ### A piece extended, and closed -/

/-- The position after a LISTED piece whose record is the list's only one. -/
theorem State.coverMissing_extends {s : State} {L : LaneId} {r : Record}
    (hp : (s.lane L).piece = some (.listed r.start)) (hl : (s.lane L).list = [r]) (hlen : 1 ≤ r.length) :
    s.coverMissing L (r.start + r.length) =
      if r.length < 1024 then
        ((s.setList L [{ r with length := r.length + 1 }]).setPiece L (some (.listed r.start))).recordTouched L r.start
          (r.start + r.length)
      else s.nextPiece L (r.start + r.length) ((s.lane L).ownPiece r.start) := by
  have hfind : findRecord r.start [r] = some r := by simp [findRecord]
  have hend : (s.lane L).pieceEnd = some r.last := by simp only [Lane.pieceEnd, hp, hl, hfind, Option.map_some]
  have hbeyond : ¬ r.start + r.length ≤ r.last := by
    simp only [Record.last]
    omega
  have hafter : startingAfter r.start [r] = [] := by simp [startingAfter]
  have hupdate : updateRecord r.start (fun r => { r with length := r.length + 1 }) [r] =
      [{ r with length := r.length + 1 }] := by simp [updateRecord]
  simp only [State.coverMissing, hend, hbeyond, if_false, State.extendPiece, hp, hl, hfind, Config.maxSpan, hafter,
    hupdate, List.head?_nil]

/-- A sample after a LISTED piece whose record is the list's only one closes it (R16). -/
theorem State.coverValid_closes {s : State} {L : LaneId} {r : Record} (hg : (s.lane L).gapStop = none)
    (hp : (s.lane L).piece = some (.listed r.start)) (hl : (s.lane L).list = [r]) (hlen : 1 ≤ r.length) (x : Int) :
    s.coverValid L (r.start + r.length) x =
      ((s.setList L [{ r with state := .live, after := some x }]).setPiece L none).recordTouched L r.start r.last := by
  have hfind : findRecord r.start [r] = some r := by simp [findRecord]
  have hend : (s.lane L).pieceEnd = some r.last := by simp only [Lane.pieceEnd, hp, hl, hfind, Option.map_some]
  have hbeyond : ¬ r.start + r.length ≤ r.last := by
    simp only [Record.last]
    omega
  have hid : s.modLane L (fun l => { l with gapStop := none }) = s := State.modLane_id (by rw [← hg])
  have hupdate : updateRecord r.start (fun r => { r with state := .live, after := some x }) [r] =
      [{ r with state := .live, after := some x }] := by simp [updateRecord]
  simp only [State.coverValid, hend, hbeyond, if_false, hid]
  rw [State.closePiece_listed hp (by rw [hl]; exact hfind), hl, hupdate]

end Sys2Proof.Machine

/-! PROOF. A run of missing positions covered by one GAP record (R14, R16), and the sample that closes it. The first
clause of O10, and the clause of O8 about the forward jump. -/

namespace Sys2Proof.Machine
open Sys2Proof

/-! ### Runs of missing positions -/

/-- From `s` to `t`, `k` positions at the fill point have been placed as missing: those before a frame that begins
beyond them, or the first of a BAD frame's own. -/
structure State.Misses (L : LaneId) (k : Nat) (s t : State) : Prop where
  fill : (t.lane L).fill = (s.lane L).fill + k
  jump : ∀ fuel e, e.samples ≠ [] → (s.lane L).fill + k ≤ e.start →
    placeRun L (k + fuel) s e = placeRun L fuel t e
  own : ∀ fuel vs r, placeRun L (k + fuel) s ⟨(s.lane L).fill, List.replicate k none ++ vs, r⟩ =
    placeRun L fuel t ⟨(s.lane L).fill + k, vs, r⟩

theorem State.Misses.one {L : LaneId} {s t : State} (hc : (s.lane L).canPlace = true) (ht : s.placeOne L none = t)
    (hfill : (t.lane L).fill = (s.lane L).fill + 1) : s.Misses L 1 t where
  fill := hfill
  jump fuel e he hst := by
    obtain ⟨st, samples, r⟩ := e
    obtain ⟨v, vs, rfl⟩ := List.exists_cons_of_ne_nil he
    have hst : (s.lane L).fill + 1 ≤ st := hst
    rw [Nat.add_comm, placeRun]
    simp only [show ¬ st < (s.lane L).fill by omega, hc, show (s.lane L).fill < st by omega, if_true, if_false, ht,
      Bool.not_true, Bool.false_eq_true]
  own fuel vs r := by
    have h := placeRun_at hc fuel none vs r
    rw [ht] at h
    rw [Nat.add_comm]
    exact h

theorem State.Misses.trans {L : LaneId} {j k : Nat} {s t u : State} (h : s.Misses L j t) (h' : t.Misses L k u) :
    s.Misses L (j + k) u where
  fill := by rw [h'.fill, h.fill, Nat.add_assoc]
  jump fuel e he hst := by
    rw [Nat.add_assoc, h.jump _ _ he (by omega), h'.jump _ _ he (by rw [h.fill]; omega)]
  own fuel vs r := by
    have h2 := h'.own fuel vs r
    rw [h.fill] at h2
    rw [Nat.add_assoc, List.replicate_add, List.append_assoc, h.own, h2, Nat.add_assoc]

theorem State.placeOne_missing {s : State} {L : LaneId}
    (hin : ((s.lane L).fill - (s.lane L).start) % 256 ≠ 255) : s.placeOne L none =
      ((s.missed L).coverMissing L (s.lane L).fill).modLane L fun l => { l with fill := l.fill + 1 } := by
  rw [State.placeOne_eq, if_neg hin, State.covered_none]

theorem Lane.sameButPoolFlags.exists_flags {l m : Lane} (h : l.sameButPoolFlags m) :
    ∃ lo ar, m = { l with low := lo, armed := ar } := ⟨_, _, h⟩

/-- One more counted at place 1, with place 5 set after it. -/
theorem Vector.count_set_set (c : Vector Nat 16) (n k b : Nat) :
    let d := (c.set 1 (min (n + k) 4294967295)).set 5 b
    d.set 1 (min (d[1] + 1) 4294967295) = (c.set 1 (min (n + (k + 1)) 4294967295)).set 5 b := by
  intro d
  have hone : d[1] = min (n + k) 4294967295 := by
    rw [Vector.getElem_set_ne (i := 5) (by decide) (by decide) (by decide), Vector.getElem_set_self]
  rw [hone, Vector.set_comm (i := 5) _ _ (by decide), Vector.set_set]
  congr 2
  omega

/-- From `s` to `t`, `i` positions have been placed as missing, covered by one OPEN GAP record with before-anchor
`a`. -/
structure State.InGap (L : LaneId) (i : Nat) (a : Int) (s t : State) : Prop where
  lane : ∃ lo ar, t.lane L = { s.lane L with
    fill := (s.lane L).fill + i
    list := [{ gapRecord (s.lane L).fill a with length := i }]
    piece := some (.listed (s.lane L).fill)
    runEnded := false
    counters := ((s.lane L).counters.set 1 (min ((s.lane L).counters[1] + i) 4294967295)).set 5
      (min ((s.lane L).counters[5] + 1) 4294967295)
    low := lo
    armed := ar }
  other : ∀ M, M ≠ L → (s.lane M).sameButPoolFlags (t.lane M)
  store : t.store = s.store.putRun (s.lane L).cell (s.lane L).fill (List.replicate i none)

/-- The first missing position opens the piece. -/
theorem State.InGap.first {s : State} {L : LaneId} (hwf : s.storeWf) (hst : (s.lane L).start ≤ (s.lane L).fill)
    (hin : ((s.lane L).fill - (s.lane L).start) % 256 ≠ 255) (hp : (s.lane L).piece = none)
    (hg : (s.lane L).gapStop = none) (hl : (s.lane L).list = []) (hc : s.canTake L = true) :
    s.InGap L 1 (s.anchorBefore L (s.lane L).fill) (s.placeOne L none) := by
  have hc' : (s.missed L).canTake L = true := by rw [State.missed_canTake, hc]
  have hopen := State.coverMissing_opens (s := s.missed L) (L := L) (by rw [State.missed_lane]; exact hp)
    (by rw [State.missed_lane]; exact hg) (by rw [State.missed_lane]; exact hl) (s.lane L).fill
  have hlane := State.takePiece_lane hc' (s.lane L).fill
  have hanchor := s.missed_anchorBefore L (st := (s.lane L).fill) hwf (.inl rfl) hst
  rw [State.missed_lane, hanchor] at hlane
  obtain ⟨lo, ar, hlane⟩ := hlane.exists_flags
  rw [State.placeOne_missing hin, hopen]
  refine ⟨⟨lo, ar, ?_⟩, fun M hM => ?_, ?_⟩
  · rw [State.lane_modLane_same, hlane]
    have hfive : ((s.lane L).count .missing).counters[5] = (s.lane L).counters[5] :=
      Vector.getElem_set_ne (i := 1) (by decide) (by decide) (by decide)
    have hlist : ((s.lane L).count .missing).list = [] := hl
    have hcount : (((s.lane L).count .missing).count .gapPieces).counters =
        ((s.lane L).counters.set 1 (min ((s.lane L).counters[1] + 1) 4294967295)).set 5
          (min ((s.lane L).counters[5] + 1) 4294967295) := by rw [← hfive]; rfl
    rw [← hcount, hlist]
    rfl
  · rw [State.lane_modLane_ne _ _ _ _ hM]
    have h := State.takePiece_other hc' (s.lane L).fill hM
    rwa [State.missed_other _ _ hM] at h
  · rw [State.modLane_store, State.takePiece_store hc']
    rfl

/-- Each missing position after it extends the piece. -/
theorem State.InGap.next {s t : State} {L : LaneId} {i : Nat} {a : Int} (h : s.InGap L i a t) (hi : 1 ≤ i)
    (hlong : i < 1024) (hst : (s.lane L).start ≤ (s.lane L).fill)
    (hin : ((s.lane L).fill - (s.lane L).start) % 256 + i < 255) : s.InGap L (i + 1) a (t.placeOne L none) := by
  obtain ⟨lo, ar, hlane⟩ := h.lane
  have hfill : (t.lane L).fill = (s.lane L).fill + i := by rw [hlane]
  have hstart : (t.lane L).start = (s.lane L).start := by rw [hlane]
  have hext := State.coverMissing_extends (s := t.missed L) (L := L)
    (r := { gapRecord (s.lane L).fill a with length := i }) (by rw [State.missed_lane, hlane]; rfl)
    (by rw [State.missed_lane, hlane]; rfl) hi
  rw [if_pos hlong] at hext
  rw [State.placeOne_missing (by rw [hfill, hstart]; omega), hfill]
  have hpos : (s.lane L).fill + i = (gapRecord (s.lane L).fill a).start + i := rfl
  have hcounters : ((t.lane L).count .missing).counters =
      ((s.lane L).counters.set 1 (min ((s.lane L).counters[1] + (i + 1)) 4294967295)).set 5
        (min ((s.lane L).counters[5] + 1) 4294967295) := by
    rw [hlane]
    exact Vector.count_set_set _ _ _ _
  refine ⟨⟨lo, ar, ?_⟩, fun M hM => ?_, ?_⟩
  · rw [State.lane_modLane_same, hpos, hext]
    simp only [State.lane_recordTouched, State.setPiece, State.setList, State.lane_modLane_same, State.missed_lane]
    rw [← hcounters, hlane]
    rfl
  · rw [State.lane_modLane_ne _ _ _ _ hM, hpos, hext, State.lane_recordTouched, State.setPiece, State.setList,
      State.lane_modLane_ne _ _ _ _ hM, State.lane_modLane_ne _ _ _ _ hM, State.missed_other _ _ hM]
    exact h.other M hM
  · have hcell : (t.lane L).cell = (s.lane L).cell := by rw [hlane]; rfl
    have hrun := SampleStore.putRun_append (cell := (s.lane L).cell) (s.lane L).fill (List.replicate i none) [none]
      s.store
    rw [List.length_replicate] at hrun
    rw [State.modLane_store, hpos, hext, State.recordTouched_store]
    change t.store.putRun (t.lane L).cell (t.lane L).fill [none] = _
    rw [hcell, hfill, h.store, ← hrun, ← List.replicate_succ']

theorem State.InGap.sameSlots {s t : State} {L : LaneId} {i : Nat} {a : Int} (h : s.InGap L i a t) :
    (s.lane L).SameSlots (t.lane L) := by
  obtain ⟨lo, ar, hlane⟩ := h.lane
  rw [hlane]
  exact ⟨rfl, rfl, rfl, rfl, rfl, rfl⟩

theorem State.InGap.fill {s t : State} {L : LaneId} {i : Nat} {a : Int} (h : s.InGap L i a t) :
    (t.lane L).fill = (s.lane L).fill + i := by
  obtain ⟨lo, ar, hlane⟩ := h.lane
  rw [hlane]

/-- A run of missing positions within the block is covered by one record. -/
theorem State.InGap.run {s : State} {L : LaneId} {k : Nat} (hwf : s.storeWf) (hl : (s.lane L).Takes (k + 1))
    (hin : ((s.lane L).fill - (s.lane L).start) % 256 + (k + 1) < 256) (hp : (s.lane L).piece = none)
    (hg : (s.lane L).gapStop = none) (hlist : (s.lane L).list = []) (hc : s.canTake L = true) :
    ∃ t, s.InGap L (k + 1) (s.anchorBefore L (s.lane L).fill) t ∧ s.Misses L (k + 1) t := by
  induction k with
  | zero =>
    have hgap := State.InGap.first hwf hl.start (by omega) hp hg hlist hc
    exact ⟨_, hgap, .one (Lane.Takes.canPlace (n := 0) hl) rfl hgap.fill⟩
  | succ k ih =>
    obtain ⟨t, hgap, hmiss⟩ := ih (hl.mono (Nat.le_succ _)) (by omega)
    have hnext := hgap.next (by omega) (by omega) hl.start (by omega)
    have htakes : (t.lane L).Takes (0 + 1) := hl.shift (by omega) hgap.sameSlots hgap.fill
    have hstep : t.Misses L 1 (t.placeOne L none) := .one htakes.canPlace rfl (by
      rw [hnext.fill, hgap.fill]
      omega)
    exact ⟨_, hnext, hmiss.trans hstep⟩

/-! ### A BAD frame (O10) -/

/-- A BAD frame at the fill point, within the block, with an empty list and a record to be had. -/
theorem samples_bad_within (s : State) (p : Port) (bytes : List Byte) (L : LaneId) (hwf : s.storeWf)
    (hears : s.hearsSamples p bytes L) :
    let l := s.lane L
    let n := sampleCount (framePayload bytes)
    l.source = p → l.takesWithinBlock n → (byteAt bytes 2).getLsbD 0 = true → fieldAt bytes 8 4 = l.fill →
    l.list = [] → s.canTake L = true →
    ∃ t : State, exec (.samplesFrame p bytes) s = .next t.grant ∧
      (t.lane L).fill = l.fill + n ∧
      (t.lane L).list = [{
        start := l.fill
        length := n
        kind := .gap
        origin := .link
        state := .opened
        disp := .applied
        ratio := 0
        before := some (({ s with events := s.events + 1 } : State).anchorBefore L l.fill)
        after := none }] ∧
      (t.lane L).piece = some (.listed l.fill) ∧
      (t.lane L).counters =
        (l.counters.set 1 (min (l.counters[1] + n) 4294967295)).set 5
          (min (l.counters[5] + 1) 4294967295) ∧
      (∀ M, M ≠ L → (t.lane M).list = (s.lane M).list ∧ (t.lane M).counters = (s.lane M).counters) ∧
      (∀ i, i < n →
        Cells.read 0 (l.cell (l.fill + i)) t.store.raw = 0 ∧
        Cells.read false (l.cell (l.fill + i)) t.store.missing = true) ∧
      (∀ a, (∀ i, i < n → a ≠ l.cell (l.fill + i)) →
        Cells.read 0 a t.store.raw = Cells.read 0 a s.store.raw ∧
        Cells.read false a t.store.missing = Cells.read false a s.store.missing) ∧
      t.store.restored = s.store.restored ∧ t.store.checkpoints = s.store.checkpoints := by
  intro l n hsrc hl hbad hpos hlist hcan
  have htakes := hl.takes
  obtain ⟨hact, hheld, hland, hpiece, hstop, -, -, -, -, hroom, htop⟩ := hl
  obtain ⟨k, hk⟩ := Nat.exists_eq_add_of_le' (sampleCount_pos (framePayload bytes))
  have hn : n = k + 1 := hk
  rw [hn] at htakes hroom htop ⊢
  obtain ⟨t, hgap, hmiss⟩ := State.InGap.run (s := s.event) hwf htakes hroom hpiece hstop hlist hcan
  have hplace : s.event.placeFrame L ⟨l.fill, List.replicate (k + 1) none, false⟩ = (t, none) := by
    obtain ⟨f, hf⟩ : ∃ f, 256 * (l.ringSize + 2) = k + 1 + (f + 1) := ⟨256 * (l.ringSize + 2) - (k + 2), by omega⟩
    have hown := hmiss.own (f + 1) [] false
    rw [List.append_nil] at hown
    rw [State.placeFrame_at rfl]
    change placeRun L (256 * (l.ringSize + 2)) _ _ = _
    rw [hf]
    exact hown
  have hplaced := State.samplesFor_placed (s := s.event) hsrc hact hheld hland
    (htakes.mono (k := 0 + 1) (by omega)).takesFrame (by simp only [List.length_replicate]; exact htop) hplace
  have hexec : exec (.samplesFrame p bytes) s =
      .next (s.event.samplesFor p L ⟨l.fill, List.replicate (k + 1) none, false⟩).grant := by
    rw [exec_samplesFrame hears, samplesEntry_bad hears hbad, hpos, hk]
  obtain ⟨lo, ar, hlane⟩ := hgap.lane
  have hlen : (List.replicate (k + 1) (none : Option Int)).length = k + 1 := List.length_replicate
  have hstore : t.store = s.store.putRun l.cell l.fill (List.replicate (k + 1) none) := hgap.store
  obtain ⟨hrest, hcheck⟩ := SampleStore.putRun_rest (cell := l.cell) l.fill (List.replicate (k + 1) none) s.store
  refine ⟨t, hexec.trans (congrArg (fun t : State => Host.Outcome.next t.grant) hplaced), hgap.fill,
    by rw [hlane]; rfl, by rw [hlane]; rfl, by rw [hlane]; rfl, fun M hM => ?_, fun i hi => ?_, fun a ha => ?_,
    by rw [hstore, hrest], by rw [hstore, hcheck]⟩
  · rw [hgap.other M hM]
    exact ⟨rfl, rfl⟩
  · rw [hstore]
    exact SampleStore.putRun_read (v := none) hwf
      (fun i j hi hj => Lane.cell_inj_within htakes.start htakes.room (by rwa [hlen] at hi) (by rwa [hlen] at hj))
      (List.getElem?_replicate_of_lt hi)
  · rw [hstore]
    exact SampleStore.putRun_read_ne hwf (by rw [hlen]; exact ha)

/-! ### The forward jump (O8) -/

/-- A valid position at the fill point stored and counted; the fill point stands. -/
def State.heard (s : State) (L : LaneId) (x : Int) : State :=
  s.put L (s.store.putRun (s.lane L).cell (s.lane L).fill [some x]) ((s.lane L).count .placed)

theorem State.covered_some (s : State) (L : LaneId) (x : Int) :
    s.covered L (some x) = (s.heard L x).coverValid L (s.lane L).fill x := by
  have h : ((s.setStore ((s.store.setRaw ((s.lane L).cell (s.lane L).fill) x).setMissing
      ((s.lane L).cell (s.lane L).fill) false)).count L .placed) = s.heard L x := rfl
  rw [← h]
  rfl

theorem State.placeOne_some {s : State} {L : LaneId} (hin : ((s.lane L).fill - (s.lane L).start) % 256 ≠ 255) (x : Int) :
    s.placeOne L (some x) =
      ((s.heard L x).coverValid L (s.lane L).fill x).modLane L fun l => { l with fill := l.fill + 1 } := by
  rw [State.placeOne_eq, if_neg hin, State.covered_some]

/-- The frame's first sample closes the piece before it. -/
theorem State.InGap.close {s t : State} {L : LaneId} {i : Nat} {a : Int} (h : s.InGap L i a t) (hi : 1 ≤ i)
    (hg : (s.lane L).gapStop = none) (hst : (s.lane L).start ≤ (s.lane L).fill)
    (hin : ((s.lane L).fill - (s.lane L).start) % 256 + i < 255) (x : Int) :
    (t.placeOne L (some x)).lane L = { (t.lane L).advance .placed with
      list := [{ gapRecord (s.lane L).fill a with length := i, state := .live, after := some x }]
      piece := none
      runEnded := false } ∧
    (t.placeOne L (some x)).store = t.store.putRun (t.lane L).cell (t.lane L).fill [some x] := by
  obtain ⟨lo, ar, hlane⟩ := h.lane
  have hfill : (t.lane L).fill = (s.lane L).fill + i := by rw [hlane]
  have hstart : (t.lane L).start = (s.lane L).start := by rw [hlane]
  have hheard : (t.heard L x).lane L = (t.lane L).count .placed := State.put_lane ..
  have hclose := State.coverValid_closes (s := t.heard L x) (L := L)
    (r := { gapRecord (s.lane L).fill a with length := i }) (by rw [hheard, hlane]; exact hg)
    (by rw [hheard, hlane]; rfl) (by rw [hheard, hlane]; rfl) hi x
  have hpos : (s.lane L).fill + i = (gapRecord (s.lane L).fill a).start + i := rfl
  rw [State.placeOne_some (by rw [hfill, hstart]; omega)]
  constructor
  · rw [State.lane_modLane_same, hfill, hpos, hclose]
    simp only [State.lane_recordTouched, State.setPiece, State.setList, State.lane_modLane_same, hheard]
    rfl
  · rw [State.modLane_store, hfill, hpos, hclose, State.recordTouched_store]
    change t.store.putRun (t.lane L).cell (t.lane L).fill [some x] = _
    rw [hfill]
    rfl

theorem Lane.advance_iterate_piece (c : Ctr) (n : Nat) (l : Lane) (rs : List Record) (p : Option Piece) (b : Bool) :
    (Lane.advance c)^[n] { l with list := rs, piece := p, runEnded := b } =
      { (Lane.advance c)^[n] l with list := rs, piece := p, runEnded := b } := by
  induction n generalizing l with
  | zero => rfl
  | succ n ih =>
    rw [Function.iterate_succ_apply, Function.iterate_succ_apply]
    exact ih (l.advance c)

/-- A frame of valid samples that begins beyond the fill point, within the block: the gap's record, closed by the
first of them, and every sample placed. -/
theorem State.placeFrame_jump {s : State} {L : LaneId} {d : Nat} {x : Int} {xs : List Int} (hwf : s.storeWf)
    (hl : (s.lane L).Takes (d + 1 + (xs.length + 1)))
    (hin : ((s.lane L).fill - (s.lane L).start) % 256 + (d + 1 + (xs.length + 1)) < 256)
    (hp : (s.lane L).piece = none) (hg : (s.lane L).gapStop = none) (hlist : (s.lane L).list = [])
    (hc : s.canTake L = true) :
    ∃ t, s.placeFrame L ⟨(s.lane L).fill + (d + 1), (x :: xs).map some, false⟩ = (t, none) ∧
      (t.lane L).fill = (s.lane L).fill + (d + 1) + (xs.length + 1) ∧ (t.lane L).piece = none ∧
      (t.lane L).list = [{ gapRecord (s.lane L).fill (s.anchorBefore L (s.lane L).fill) with
        length := d + 1, state := .live, after := some x }] ∧
      (t.lane L).counters = (((s.lane L).counters.set 1 (min ((s.lane L).counters[1] + (d + 1)) 4294967295)).set 5
        (min ((s.lane L).counters[5] + 1) 4294967295)).set 0
        (min ((s.lane L).counters[0] + (xs.length + 1)) 4294967295) ∧
      t.store = s.store.putRun (s.lane L).cell (s.lane L).fill
        (List.replicate (d + 1) none ++ (x :: xs).map some) := by
  obtain ⟨t, hgap, hmiss⟩ := State.InGap.run hwf (hl.mono (k := d + 1) (by omega)) (by omega) hp hg hlist hc
  obtain ⟨hone, hstore⟩ := hgap.close (by omega) hg hl.start (by omega) x
  obtain ⟨lo, ar, hlane⟩ := hgap.lane
  have htakes : (t.lane L).Takes (xs.length + 1) := hl.shift (by omega) hgap.sameSlots hgap.fill
  have htstart : (t.lane L).start = (s.lane L).start := by rw [hlane]
  set u := t.placeOne L (some x) with hu
  have hufill : (u.lane L).fill = (t.lane L).fill + 1 := by rw [hone]; rfl
  have hustart : (u.lane L).start = (t.lane L).start := by rw [hone]; rfl
  have hutakes : (u.lane L).Takes xs.length := by
    refine htakes.step ?_ ?_ hufill
    · have := hl.start
      rw [hgap.fill, htstart]
      omega
    · rw [hone]
      exact ⟨rfl, rfl, rfl, rfl, rfl, rfl⟩
  have huin : ((u.lane L).fill - (u.lane L).start) % 256 + xs.length < 256 := by
    have := hl.start
    rw [hufill, hustart, hgap.fill, htstart]
    omega
  have hup : (u.lane L).piece = none := by rw [hone]
  have hug : (u.lane L).gapStop = none := by rw [hone, hlane]; exact hg
  have hucell : (u.lane L).cell = (s.lane L).cell := by rw [hone, hlane]; rfl
  have htcell : (t.lane L).cell = (s.lane L).cell := by rw [hlane]; rfl
  obtain ⟨f, hf⟩ : ∃ f, 256 * ((s.lane L).ringSize + 2) = (d + 1) + ((xs.length + (f + 1)) + 1) :=
    ⟨256 * ((s.lane L).ringSize + 2) - (d + 1) - (xs.length + 2), by omega⟩
  have hjump := hmiss.jump ((xs.length + (f + 1)) + 1) ⟨(s.lane L).fill + (d + 1), (x :: xs).map some, false⟩
    (List.cons_ne_nil _ _) (le_refl _)
  have hat := placeRun_at (L := L) (s := t) htakes.canPlace (xs.length + (f + 1)) (some x) (xs.map some) false
  have hrun := placeRun_valid (L := L) (s := u) xs hutakes huin hup hug (f + 1) [] false
  rw [List.append_nil, placeRun_nil, hufill] at hrun
  rw [← hu, hrun, hgap.fill] at hat
  have hfinal : (Lane.advance .placed)^[xs.length] (u.lane L) = { (Lane.advance .placed)^[xs.length + 1] (t.lane L) with
      list := [{ gapRecord (s.lane L).fill (s.anchorBefore L (s.lane L).fill) with
        length := d + 1, state := .live, after := some x }]
      piece := none
      runEnded := false } := by
    rw [hone, Lane.advance_iterate_piece, Function.iterate_succ_apply]
  refine ⟨u.put L (u.store.putRun (u.lane L).cell (u.lane L).fill (xs.map some))
    ((Lane.advance .placed)^[xs.length] (u.lane L)), ?_, ?_, ?_, ?_, ?_, ?_⟩
  · rw [State.placeFrame_ahead (Nat.le_add_right _ _), hf, hjump]
    rw [hufill, hgap.fill]
    exact hat
  · rw [State.put_lane, hfinal, Lane.advance_iterate .placed (Nat.succ_pos _), hlane]
  · rw [State.put_lane, hfinal]
  · rw [State.put_lane, hfinal]
  · rw [State.put_lane, hfinal, Lane.advance_iterate .placed (Nat.succ_pos _), hlane]
    have hzero : (((s.lane L).counters.set 1 (min ((s.lane L).counters[1] + (d + 1)) 4294967295)).set 5
        (min ((s.lane L).counters[5] + 1) 4294967295))[0] = (s.lane L).counters[0] := by
      rw [Vector.getElem_set_ne (i := 5) (by decide) (by decide) (by decide),
        Vector.getElem_set_ne (i := 1) (by decide) (by decide) (by decide)]
    rw [← hzero]
    rfl
  · have hrun1 := SampleStore.putRun_append (cell := (s.lane L).cell) (s.lane L).fill
      (List.replicate (d + 1) none) ((x :: xs).map some) s.store
    rw [List.length_replicate] at hrun1
    rw [State.put_store, hrun1, hstore, hgap.store, hucell, htcell, hufill, hgap.fill]
    rfl

/-- The fourth clause of O8: a frame that begins beyond the fill point. -/
theorem samples_jump (s : State) (p : Port) (bytes : List Byte) (L : LaneId) (hwf : s.storeWf)
    (hears : s.hearsSamples p bytes L) :
    let l := s.lane L
    let payload := framePayload bytes
    let n := sampleCount payload
    let pos := fieldAt bytes 8 4
    let xs := decodeWords (s.port p).width (s.port p).order n (payload.drop 5)
    l.source = p → (byteAt bytes 2).getLsbD 0 = false → l.fill < pos → l.takesWithinBlock (pos + n - l.fill) →
    l.list = [] → s.canTake L = true →
    ∃ t : State, exec (.samplesFrame p bytes) s = .next t.grant ∧
      (t.lane L).fill = pos + n ∧ (t.lane L).piece = none ∧
      (∀ x, xs.head? = some x → (t.lane L).list = [{
        start := l.fill
        length := pos - l.fill
        kind := .gap
        origin := .link
        state := .live
        disp := .applied
        ratio := 0
        before := some (({ s with events := s.events + 1 } : State).anchorBefore L l.fill)
        after := some x }]) ∧
      (t.lane L).counters =
        ((l.counters.set 0 (min (l.counters[0] + n) 4294967295)).set 1
          (min (l.counters[1] + (pos - l.fill)) 4294967295)).set 5 (min (l.counters[5] + 1) 4294967295) ∧
      (∀ i, i < pos - l.fill →
        Cells.read 0 (l.cell (l.fill + i)) t.store.raw = 0 ∧
        Cells.read false (l.cell (l.fill + i)) t.store.missing = true) ∧
      (∀ i x, xs[i]? = some x →
        Cells.read 0 (l.cell (pos + i)) t.store.raw = x ∧
        Cells.read false (l.cell (pos + i)) t.store.missing = false) ∧
      ∀ a, (∀ i, i < pos + n - l.fill → a ≠ l.cell (l.fill + i)) →
        Cells.read 0 a t.store.raw = Cells.read 0 a s.store.raw ∧
        Cells.read false a t.store.missing = Cells.read false a s.store.missing := by
  intro l payload n pos xs hsrc hb hbeyond hl hlist hcan
  have htakes := hl.takes
  obtain ⟨hact, hheld, hland, hpiece, hstop, -, -, -, -, hroom, htop⟩ := hl
  have hlen : xs.length = n := decodeWords_length _ _ _ _
  have hn : 0 < n := sampleCount_pos _
  obtain ⟨d, hd⟩ : ∃ d, pos = l.fill + (d + 1) := ⟨pos - l.fill - 1, by omega⟩
  obtain ⟨x, xs', hxs⟩ := List.exists_cons_of_length_pos (hlen ▸ hn)
  have hlen' : xs'.length + 1 = n := by rw [← hlen, hxs, List.length_cons]
  have hspan : pos + n - l.fill = d + 1 + (xs'.length + 1) := by omega
  rw [hspan] at htakes hroom htop ⊢
  obtain ⟨t, hplace, hfill, hp, hrs, hcount, hstore⟩ := State.placeFrame_jump (s := s.event) (L := L) (d := d) (x := x)
    (xs := xs') hwf htakes hroom hpiece hstop hlist hcan
  have hplaced := State.samplesFor_placed (s := s.event) hsrc hact hheld hland
    (htakes.mono (k := 0 + 1) (by omega)).takesFrame (by
      simp only [List.length_map, List.length_cons]
      change l.fill + (d + 1) + (xs'.length + 1) ≤ 4294967296
      omega) hplace
  have hexec : exec (.samplesFrame p bytes) s = .next
      (s.event.samplesFor p L ⟨l.fill + (d + 1), (x :: xs').map some, false⟩).grant := by
    rw [exec_samplesFrame hears, samplesEntry_clear hears hb, ← hxs, ← hd]
    rfl
  set vs : List (Option Int) := List.replicate (d + 1) none ++ (x :: xs').map some
  have hvs : vs.length = d + 1 + (xs'.length + 1) := by
    simp only [vs, List.length_append, List.length_replicate, List.length_map, List.length_cons]
  have hstore' : t.store = s.store.putRun l.cell l.fill vs := hstore
  have hinj : ∀ i j, i < vs.length → j < vs.length → l.cell (l.fill + i) = l.cell (l.fill + j) → i = j :=
    fun i j hi hj => Lane.cell_inj_within htakes.start htakes.room (by rwa [hvs] at hi) (by rwa [hvs] at hj)
  refine ⟨t, hexec.trans (congrArg (fun t : State => Host.Outcome.next t.grant) hplaced), ?_, hp, fun x' hx' => ?_, ?_,
    fun i hi => ?_, fun i y hy => ?_, fun a ha => ?_⟩
  · rw [hfill]
    change l.fill + (d + 1) + (xs'.length + 1) = _
    omega
  · rw [hxs, List.head?_cons, Option.some.injEq] at hx'
    rw [hrs, ← hx', show pos - l.fill = d + 1 by omega]
    rfl
  · rw [hcount, show pos - l.fill = d + 1 by omega, ← hlen']
    change ((l.counters.set 1 _).set 5 _).set 0 _ = _
    rw [Vector.set_comm (i := 5) (j := 0) _ _ (by decide), Vector.set_comm (i := 1) (j := 0) _ _ (by decide)]
    rfl
  · rw [hstore']
    refine SampleStore.putRun_read (v := none) hwf hinj ?_
    rw [List.getElem?_append_left (by rw [List.length_replicate]; omega)]
    exact List.getElem?_replicate_of_lt (by omega)
  · have hread := SampleStore.putRun_read (cell := l.cell) (m := l.fill) (i := d + 1 + i) (v := some y) hwf hinj (by
      rw [List.getElem?_append_right (by rw [List.length_replicate]; omega), List.length_replicate,
        Nat.add_sub_cancel_left, List.getElem?_map, ← hxs, hy]
      rfl)
    rw [hstore', hd, Nat.add_assoc]
    exact hread
  · rw [hstore']
    exact SampleStore.putRun_read_ne hwf (by rw [hvs]; exact ha)

/-- Settles O8: each clause is one of the theorems above, by where the frame begins and ends. -/
theorem samplesArePlacedAtTheFillPoint : Obligations.SamplesArePlacedAtTheFillPoint :=
  ⟨samples_placed_within, samples_all_duplicate, samples_trimmed, samples_jump, samples_into_free_slot,
    samples_join_landing⟩

end Sys2Proof.Machine

/-! PROOF. The marks of a merge (R38, R76), the write of an unlisted span and the sample that closes an unlisted piece
(R43). The last three clauses of O10. -/

namespace Sys2Proof.Machine
open Sys2Proof

/-! ### Marks over the ring -/

/-- One block of the ring marked with `n`, if it holds a position of `lo` to `hi` and satisfies `f`. -/
def Lane.markOne (lo hi n : Nat) (f : Block → Bool) (m : Lane) (j : Nat) : Lane :=
  if m.blockMeets j lo hi && f (m.block j) then m.setBlock j ((m.block j).marked n) else m

theorem Lane.markWhere_eq (l : Lane) (lo hi n : Nat) (f : Block → Bool) :
    l.markWhere lo hi n f = l.ordinals.foldl (Lane.markOne lo hi n f) l := rfl

section
variable (lo hi n : Nat) (f : Block → Bool)

/-- Marking changes blocks only, and no block that lies on another ring entry. -/
theorem Lane.markOne_fields (l : Lane) (j : Nat) :
    l.markOne lo hi n f j = { l with blocks := (l.markOne lo hi n f j).blocks } ∧
    (l.markOne lo hi n f j).blocks.length = l.blocks.length := by
  unfold Lane.markOne
  split
  · exact ⟨rfl, List.length_set⟩
  · exact ⟨rfl, rfl⟩

theorem Lane.block_setBlock_ne {l : Lane} {i j : Nat} (h : l.entryOf i ≠ l.entryOf j) (b : Block) :
    (l.setBlock i b).block j = l.block j := by
  have hentry : (l.setBlock i b).entryOf j = l.entryOf j := rfl
  rw [Lane.block, hentry]
  simp only [Lane.setBlock, Lane.block, List.getD_eq_getElem?_getD, List.getElem?_set_ne h]

theorem Lane.markOne_block_ne {l : Lane} {i j : Nat} (h : l.entryOf i ≠ l.entryOf j) :
    (l.markOne lo hi n f i).block j = l.block j := by
  unfold Lane.markOne
  split
  · exact Lane.block_setBlock_ne h _
  · rfl

theorem Lane.markOne_block_self {l : Lane} (hb : l.blocks.length = l.ring.length) (hr : 0 < l.ring.length) (j : Nat) :
    (l.markOne lo hi n f j).block j =
      if l.blockMeets j lo hi && f (l.block j) then (l.block j).marked n else l.block j := by
  unfold Lane.markOne
  split
  · exact Lane.block_setBlock_self hb hr j _
  · rfl

/-- Blocks marked one after another, each on a ring entry of its own. -/
theorem Lane.foldl_markOne (js : List Nat) {l : Lane} (hb : l.blocks.length = l.ring.length) (hr : 0 < l.ring.length)
    (hd : js.Pairwise fun i j => l.entryOf i ≠ l.entryOf j) :
    let m := js.foldl (Lane.markOne lo hi n f) l
    m = { l with blocks := m.blocks } ∧
    (∀ j, (∀ i ∈ js, l.entryOf i ≠ l.entryOf j) → m.block j = l.block j) ∧
    ∀ j ∈ js, m.block j = if l.blockMeets j lo hi && f (l.block j) then (l.block j).marked n else l.block j := by
  induction js generalizing l with
  | nil => exact ⟨rfl, fun _ _ => rfl, fun _ h => absurd h List.not_mem_nil⟩
  | cons i js ih =>
    obtain ⟨hfirst, hd⟩ := List.pairwise_cons.1 hd
    obtain ⟨hfields, hlen⟩ := l.markOne_fields lo hi n f i
    set k := l.markOne lo hi n f i with hk
    obtain ⟨bs, hfields⟩ : ∃ bs, k = { l with blocks := bs } := ⟨_, hfields⟩
    have hring : k.ring = l.ring := by rw [hfields]
    have hentry : ∀ j, k.entryOf j = l.entryOf j := fun j => by rw [hfields]; rfl
    have hmeets : ∀ j, k.blockMeets j lo hi = l.blockMeets j lo hi := fun j => by rw [hfields]; rfl
    obtain ⟨h1, h2, h3⟩ := ih (l := k) (by rw [hlen, hring, hb]) (by rw [hring]; exact hr)
      (by simpa only [hentry] using hd)
    simp only [hentry] at h2
    refine ⟨?_, fun j hj => ?_, fun j hj => ?_⟩
    · rw [List.foldl_cons]
      generalize js.foldl (Lane.markOne lo hi n f) k = w at h1
      rw [h1, hfields]
    · rw [List.foldl_cons]
      exact (h2 j fun i' hi' => hj i' (List.mem_cons_of_mem _ hi')).trans
        (Lane.markOne_block_ne lo hi n f (hj i List.mem_cons_self))
    · rw [List.foldl_cons]
      rcases List.mem_cons.1 hj with rfl | hj'
      · exact (h2 j fun i' hi' => (hfirst i' hi').symm).trans (Lane.markOne_block_self lo hi n f hb hr j)
      · rw [h3 j hj', hmeets, hk, Lane.markOne_block_ne lo hi n f (hfirst j hj')]

end

/-- The ordinals of the ring lie on different entries. -/
theorem Lane.ordinals_pairwise (l : Lane) : l.ordinals.Pairwise fun i j => l.entryOf i ≠ l.entryOf j := by
  unfold Lane.ordinals
  rw [List.pairwise_map]
  refine List.Pairwise.imp_of_mem ?_ List.pairwise_lt_range
  intro a b ha hb hab he
  rw [List.mem_range] at ha hb
  simp only [Lane.entryOf] at he
  have hmod : (l.oldest + a) % l.ringSize = (l.oldest + b) % l.ringSize := he
  have h := (Nat.ModEq.add_left_cancel' l.oldest hmod)
  rw [Nat.ModEq, Nat.mod_eq_of_lt ha, Nat.mod_eq_of_lt hb] at h
  omega

theorem Lane.mem_ordinals (l : Lane) (j : Nat) : j ∈ l.ordinals ↔ l.oldest ≤ j ∧ j < l.oldest + l.ring.length := by
  simp only [Lane.ordinals, List.mem_map, List.mem_range, Lane.ringSize]
  constructor
  · rintro ⟨i, hi, rfl⟩
    omega
  · intro h
    exact ⟨j - l.oldest, by omega, by omega⟩

/-! ### The marks of a merge -/

/-- The lane a merge's marks start from: the edit number raised if a block rendered at least once is touched. -/
def Lane.mergeStart (l : Lane) (lo hi : Nat) : Lane := if l.meetsRendered lo hi then l.raiseEdit else l

theorem Lane.mergeStart_fields (l : Lane) (lo hi : Nat) :
    l.mergeStart lo hi = { l with edit := (l.mergeStart lo hi).edit } := by
  unfold Lane.mergeStart
  split <;> rfl

theorem Lane.mergeMark_eq (l : Lane) (lo hi : Nat) : l.mergeMark lo hi =
    (l.mergeStart lo hi).markWhere lo hi (l.mergeStart lo hi).edit fun b => b.rendered || b.state == .rendering := rfl

theorem Lane.meetsRendered_iff (l : Lane) (lo hi : Nat) : l.meetsRendered lo hi = true ↔
    ∃ j, (l.oldest ≤ j ∧ j < l.oldest + l.ring.length) ∧ (lo ≤ l.lastOf j ∧ l.firstOf j ≤ hi) ∧
      (l.block j).rendered = true := by
  simp only [Lane.meetsRendered, List.any_eq_true, Lane.mem_ordinals, Lane.blockMeets, Bool.and_eq_true,
    decide_eq_true_eq, and_comm (a := l.firstOf _ ≤ hi)]

/-- A merge's marks: the edit number, and each block by its own state. -/
theorem Lane.mergeMark_spec {l : Lane} (lo hi : Nat) (hr : 0 < l.ring.length) (hb : l.blocks.length = l.ring.length) :
    let n := (l.mergeMark lo hi).edit
    n = (l.mergeStart lo hi).edit ∧ l.mergeMark lo hi = { l with edit := n, blocks := (l.mergeMark lo hi).blocks } ∧
    ∀ j ∈ l.ordinals, (l.mergeMark lo hi).block j =
      if l.blockMeets j lo hi && ((l.block j).rendered || (l.block j).state == .rendering) then (l.block j).marked n
      else l.block j := by
  have hstart := l.mergeStart_fields lo hi
  set k := l.mergeStart lo hi with hk
  have hkring : k.ring = l.ring := by rw [hstart]
  have hkblocks : k.blocks = l.blocks := by rw [hstart]
  have hkord : k.ordinals = l.ordinals := by rw [hstart]; rfl
  have hkblock : ∀ j, k.block j = l.block j := fun j => by rw [hstart]; rfl
  have hkmeets : ∀ j, k.blockMeets j lo hi = l.blockMeets j lo hi := fun j => by rw [hstart]; rfl
  obtain ⟨h1, -, h3⟩ := Lane.foldl_markOne lo hi k.edit (fun b => b.rendered || b.state == .rendering) k.ordinals
    (by rw [hkring, hkblocks, hb]) (by rw [hkring]; exact hr) k.ordinals_pairwise
  rw [← Lane.markWhere_eq, ← Lane.mergeMark_eq] at h1 h3
  have hedit : (l.mergeMark lo hi).edit = k.edit := by rw [h1]
  refine ⟨hedit, ?_, fun j hj => ?_⟩
  · rw [hedit]
    exact h1.trans (by rw [hstart])
  · rw [h3 j (by rw [hkord]; exact hj), hedit, hkblock, hkmeets]

/-- Two lane records of one ring are marked alike. -/
theorem Lane.SameRing.markOne {l m : Lane} (h : l.SameRing m) (lo hi n : Nat) (f : Block → Bool) (j : Nat) :
    (l.markOne lo hi n f j).SameRing (m.markOne lo hi n f j) := by
  unfold Lane.markOne
  rw [h.blockMeets, h.block]
  split
  · exact h.setBlock_sameRing _ _
  · exact h

theorem Lane.SameRing.foldl_markOne {l m : Lane} (h : l.SameRing m) (lo hi n : Nat) (f : Block → Bool)
    (js : List Nat) : (js.foldl (Lane.markOne lo hi n f) l).SameRing (js.foldl (Lane.markOne lo hi n f) m) := by
  induction js generalizing l m with
  | nil => exact h
  | cons j js ih => exact ih (h.markOne lo hi n f j)

theorem Lane.SameRing.mergeStart {l m : Lane} (h : l.SameRing m) (he : m.edit = l.edit) (lo hi : Nat) :
    (l.mergeStart lo hi).SameRing (m.mergeStart lo hi) ∧ (m.mergeStart lo hi).edit = (l.mergeStart lo hi).edit := by
  have hmeets : m.meetsRendered lo hi = l.meetsRendered lo hi := by
    simp only [Lane.meetsRendered, h.ordinals, h.blockMeets, h.block]
  unfold Lane.mergeStart
  rw [hmeets]
  split
  · exact ⟨⟨h.start, h.ring, h.fill, h.release, h.final, h.blocks⟩, by simp only [Lane.raiseEdit, he]⟩
  · exact ⟨h, he⟩

theorem Lane.markWhere_edit (l : Lane) (lo hi n : Nat) (f : Block → Bool) : (l.markWhere lo hi n f).edit = l.edit := by
  rw [Lane.markWhere_eq]
  refine List.foldlRecOn (motive := fun m : Lane => m.edit = l.edit) _ _ rfl fun m hm j _ => ?_
  rw [(m.markOne_fields lo hi n f j).1]
  exact hm

/-- Two lane records of one ring and edit number take the same marks of a merge. -/
theorem Lane.SameRing.mergeMark {l m : Lane} (h : l.SameRing m) (he : m.edit = l.edit) (lo hi : Nat) :
    (m.mergeMark lo hi).edit = (l.mergeMark lo hi).edit ∧ (m.mergeMark lo hi).blocks = (l.mergeMark lo hi).blocks := by
  obtain ⟨hstart, hedit⟩ := h.mergeStart he lo hi
  rw [Lane.mergeMark_eq, Lane.mergeMark_eq, Lane.markWhere_edit, Lane.markWhere_edit, hedit]
  refine ⟨rfl, ?_⟩
  rw [Lane.markWhere_eq, Lane.markWhere_eq, hstart.ordinals]
  exact (hstart.foldl_markOne lo hi _ _ _).blocks

/-- The clause of O10 about a merge's marks. -/
theorem mergeMark_clause (l : Lane) (lo hi : Nat) (hr : 0 < l.ring.length) (hb : l.blocks.length = l.ring.length) :
    let within := fun (j : Nat) => l.oldest ≤ j ∧ j < l.oldest + l.ring.length
    let met := fun (j : Nat) => lo ≤ l.lastOf j ∧ l.firstOf j ≤ hi
    let n := (l.mergeMark lo hi).edit
    let lower := fun (m : Option Nat) => some (m.elim n fun x => min x n)
    ((∃ j, within j ∧ met j ∧ (l.block j).rendered = true) → n = min (l.edit + 1) 4294967295) ∧
    ((¬ ∃ j, within j ∧ met j ∧ (l.block j).rendered = true) → n = l.edit) ∧
    l.mergeMark lo hi = { l with edit := n, blocks := (l.mergeMark lo hi).blocks } ∧
    ∀ j, within j →
      let b := l.block j
      (met j → b.rendered = true ∨ b.state = .rendering →
        (l.mergeMark lo hi).block j =
          match b.state with
          | .rendered => { b with state := .dirty, mark := some n }
          | .dirty => { b with mark := lower b.mark }
          | .rendering => { b with touch := lower b.touch }
          | .free => b
          | .filling => b
          | .analysed => b) ∧
      (¬(met j ∧ (b.rendered = true ∨ b.state = .rendering)) → (l.mergeMark lo hi).block j = b) := by
  intro within met n lower
  obtain ⟨hedit, hfields, hblocks⟩ := Lane.mergeMark_spec lo hi hr hb
  have hlower : ∀ m, lowerMark n m = lower m := fun m => by cases m <;> rfl
  refine ⟨fun h => ?_, fun h => ?_, hfields, fun j hj => ?_⟩
  · exact hedit.trans (by rw [Lane.mergeStart, if_pos ((l.meetsRendered_iff lo hi).2 h)]; rfl)
  · exact hedit.trans (by rw [Lane.mergeStart, if_neg fun hc => h ((l.meetsRendered_iff lo hi).1 hc)])
  · intro b
    have hj' := hblocks j ((l.mem_ordinals j).2 hj)
    have hcond : (l.blockMeets j lo hi && ((l.block j).rendered || (l.block j).state == .rendering)) = true ↔
        met j ∧ (b.rendered = true ∨ b.state = .rendering) := by
      simp only [Lane.blockMeets, Bool.and_eq_true, Bool.or_eq_true, decide_eq_true_eq, beq_iff_eq, met, b, and_comm]
    refine ⟨fun hm hs => ?_, fun hn => ?_⟩
    · rw [hj', if_pos (hcond.2 ⟨hm, hs⟩)]
      rw [← funext hlower] <;> rfl
    · rw [hj', if_neg fun hc => hn (hcond.1 hc)]

/-! ### The write of an unlisted span (R43) -/

/-- Raw values written at addresses of their own are read back, and every other address stands. -/
theorem SampleStore.foldl_setRaw_read {st : SampleStore} (hwf : st.wf = true) (cell : Nat → Nat) (f : Nat → Int)
    (len : Nat) (hinj : ∀ i j, i < len → j < len → cell i = cell j → i = j) :
    let t := (List.range len).foldl (fun m i => m.setRaw (cell i) (f i)) st
    t.wf = true ∧ (∀ i, i < len → Cells.read 0 (cell i) t.raw = f i) ∧
    ∀ a, (∀ i, i < len → a ≠ cell i) → Cells.read 0 a t.raw = Cells.read 0 a st.raw := by
  induction len with
  | zero => exact ⟨hwf, fun i hi => absurd hi (Nat.not_lt_zero i), fun _ _ => rfl⟩
  | succ len ih =>
    obtain ⟨hw, hread, hother⟩ := ih fun i j hi hj => hinj i j (by omega) (by omega)
    rw [List.range_succ, List.foldl_append]
    set u := (List.range len).foldl (fun m i => m.setRaw (cell i) (f i)) st
    have hlast : ∀ a, Cells.read 0 a (u.setRaw (cell len) (f len)).raw =
        if a = cell len then f len else Cells.read 0 a u.raw := fun a =>
      Cells.read_write 0 (cell len) a (f len) ((SampleStore.wf_iff u).1 hw).1
    refine ⟨SampleStore.setRaw_wf _ _ _ hw, fun i hi => (hlast _).trans ?_, fun a ha => (hlast a).trans ?_⟩
    · by_cases he : i = len
      · rw [he, if_pos rfl]
      · rw [if_neg fun hc => he (hinj i len hi (Nat.lt_succ_self _) hc)]
        exact hread i (by omega)
    · rw [if_neg (ha len (Nat.lt_succ_self _))]
      exact hother a fun i hi => ha i (by omega)

theorem State.setStore_raw {s : State} {m : SampleStore} (h : m = { s.store with raw := m.raw }) :
    s.setStore m = { s with store := { s.store with raw := m.raw } } := by
  rw [← h]
  rfl

theorem State.writeUnlisted_read {s : State} {L : LaneId} {start len : Nat} (b : Int) (hwf : s.store.wf = true)
    (hr : (s.lane L).ringAsOpened) (hst : (s.lane L).start ≤ start) (hlen : len ≤ 1024) :
    (∀ i, i < len → Cells.read 0 ((s.lane L).cell (start + i)) (s.writeUnlisted L start len b).store.raw =
      interpolate (s.anchorBefore L start) b len i) ∧
    ∀ a, (∀ i, i < len → a ≠ (s.lane L).cell (start + i)) →
      Cells.read 0 a (s.writeUnlisted L start len b).store.raw = Cells.read 0 a s.store.raw := by
  obtain ⟨hsize, hnodup, -⟩ := hr
  exact (SampleStore.foldl_setRaw_read hwf (fun i => (s.lane L).cell (start + i))
    (interpolate (s.anchorBefore L start) b len) len fun i j hi hj hc => by
      have := Lane.cell_inj_ring hnodup (show (s.lane L).start ≤ start + i by omega)
        (show (s.lane L).start ≤ start + j by omega) (by omega) (by omega) hc
      omega).2

/-- The clause of O10 about an unlisted span's write. -/
theorem writeUnlisted_clause (s : State) (L : LaneId) (start len : Nat) (b : Int) (hwf : s.storeWf) :
    let l := s.lane L
    let t := s.writeUnlisted L start len b
    l.ringAsOpened → l.start ≤ start → len ≤ 1024 →
    t = { s with store := { s.store with raw := t.store.raw } } ∧
    (∀ i, i < len → Cells.read 0 (l.cell (start + i)) t.store.raw =
      interpolate (s.anchorBefore L start) b len i) ∧
    ∀ a, (∀ i, i < len → a ≠ l.cell (start + i)) → Cells.read 0 a t.store.raw = Cells.read 0 a s.store.raw := by
  intro l t hr hst hlen
  exact ⟨State.setStore_raw (SampleStore.foldl_setRaw _ _ _ _).1, State.writeUnlisted_read b hwf hr hst hlen⟩

/-! ### A frame of one position -/

/-- A frame of one position heard at the fill point, within the block. -/
theorem exec_samples_one {s : State} {p : Port} {bytes : List Byte} {L : LaneId} {v : Option Int}
    (hears : s.hearsSamples p bytes L) (hsrc : (s.lane L).source = p)
    (hl : ({ s.lane L with piece := none } : Lane).takesWithinBlock 1)
    (he : samplesEntry (s.port p) (byteAt bytes 2) (framePayload bytes) = ⟨(s.lane L).fill, [v], false⟩) :
    exec (.samplesFrame p bytes) s = .next (s.event.placeOne L v).grant := by
  have htakes : (s.lane L).Takes (0 + 1) := ⟨hl.takes.opened, hl.takes.start, hl.takes.final, hl.takes.inRing,
    hl.takes.filling, hl.takes.room, hl.takes.top⟩
  obtain ⟨hact, hheld, hland, -, -, -, -, -, -, -, htop⟩ := hl
  have hplace : s.event.placeFrame L ⟨(s.lane L).fill, [v], false⟩ = (s.event.placeOne L v, none) := by
    rw [State.placeFrame_at rfl]
    obtain ⟨f, hf⟩ : ∃ f, 256 * ((s.event.lane L).ringSize + 2) = f + 1 + 1 :=
      ⟨256 * ((s.event.lane L).ringSize + 2) - 2, by omega⟩
    rw [hf]
    exact placeRun_at (s := s.event) htakes.canPlace (f + 1) v [] false
  have hplaced := State.samplesFor_placed (s := s.event) hsrc hact hheld hland htakes.takesFrame htop hplace
  rw [exec_samplesFrame hears, he]
  exact congrArg (fun t : State => Host.Outcome.next t.grant) hplaced

/-- The clause of O10 about the sample that closes an unlisted piece. -/
theorem sample_closes_unlisted (s : State) (p : Port) (bytes : List Byte) (L : LaneId) (start len : Nat)
    (hwf : s.storeWf) (hears : s.hearsSamples p bytes L) :
    let l := s.lane L
    let payload := framePayload bytes
    let xs := decodeWords (s.port p).width (s.port p).order 1 (payload.drop 5)
    l.source = p → (byteAt bytes 2).getLsbD 0 = false → fieldAt bytes 8 4 = l.fill → sampleCount payload = 1 →
    ({ l with piece := none } : Lane).takesWithinBlock 1 → l.ringAsOpened → l.piece = some (.unlisted start len) →
    l.start ≤ start → 1 ≤ len → len ≤ 1024 → start + len = l.fill →
    ∃ t : State, exec (.samplesFrame p bytes) s = .next t.grant ∧
      t.lane L = { l with
        fill := l.fill + 1
        piece := none
        runEnded := false
        counters := l.counters.set 0 (min (l.counters[0] + 1) 4294967295) } ∧
      ∀ x, xs = [x] →
        Cells.read 0 (l.cell l.fill) t.store.raw = x ∧
        (∀ i, i < len → Cells.read 0 (l.cell (start + i)) t.store.raw =
          interpolate (({ s with events := s.events + 1 } : State).anchorBefore L start) x len i) ∧
        (∀ a, (∀ i, i ≤ len → a ≠ l.cell (start + i)) →
          Cells.read 0 a t.store.raw = Cells.read 0 a s.store.raw) ∧
        ∀ a, a ≠ l.cell l.fill → Cells.read false a t.store.missing = Cells.read false a s.store.missing := by
  intro l payload xs hsrc hb hpos hcount hl hring hpiece hst hpos1 hlen hend
  obtain ⟨x, hx⟩ := List.length_eq_one_iff.1 (decodeWords_length (s.port p).width (s.port p).order 1 (payload.drop 5))
  have hwords : (s.port p).words payload = [x] := by
    rw [PortRec.words, hcount]
    exact hx
  have hexec := exec_samples_one (v := some x) hears hsrc hl (by
    rw [samplesEntry_clear hears hb, hpos, hwords]
    rfl)
  have hstop : l.gapStop = none := hl.2.2.2.2.1
  have hin : (l.fill - l.start) % 256 + 1 < 256 := hl.2.2.2.2.2.2.2.2.2.1
  set h := s.event.heard L x with hh
  have hhl : h.lane L = l.count .placed := State.put_lane ..
  have hclose : h.coverValid L l.fill x = (h.writeUnlisted L start len x).setPiece L none := by
    have hpend : (h.lane L).pieceEnd = some (start + len - 1) := by
      rw [hhl]
      simp only [Lane.pieceEnd, Lane.count, hpiece]
    have hid : h.modLane L (fun l => { l with gapStop := none }) = h :=
      State.modLane_id (by rw [hhl, ← hstop]; rfl)
    have hbeyond : ¬ l.fill ≤ start + len - 1 := by omega
    simp only [State.coverValid, hpend, hid, hbeyond, if_false]
    exact State.closePiece_unlisted (by rw [hhl]; exact hpiece) x
  have hplace : s.event.placeOne L (some x) =
      ((h.writeUnlisted L start len x).setPiece L none).modLane L fun l => { l with fill := l.fill + 1 } := by
    have hplace := State.placeOne_some (s := s.event) (L := L) (show (l.fill - l.start) % 256 ≠ 255 by omega) x
    rw [← hclose]
    exact hplace
  have hring' : (h.lane L).ringAsOpened := by rw [hhl]; exact hring
  have hstart : l.start ≤ l.fill := hst.trans (by omega)
  obtain ⟨hsize, hnodup, -⟩ := hring
  have hanchor : h.anchorBefore L start = s.event.anchorBefore L start :=
    s.event.put_anchorBefore L (some x) ⟨rfl, rfl, rfl⟩ hwf
      (.inr ⟨hnodup, show l.fill + 1 < start + 256 * l.ring.length by omega⟩) hstart
  have hhwf : h.store.wf = true := SampleStore.putRun_wf _ _ hwf
  have hcell : (h.lane L).cell = l.cell := by rw [hhl]; rfl
  obtain ⟨hread, hother⟩ := State.writeUnlisted_read (L := L) (start := start) x hhwf hring' (by rw [hhl]; exact hst) hlen
  rw [hcell, hanchor] at hread
  rw [hcell] at hother
  have hfill : ∀ i, i < len → l.cell l.fill ≠ l.cell (start + i) := fun i hi hc => by
    have := Lane.cell_inj_ring hnodup hstart (show l.start ≤ start + i by omega) (by omega) (by omega) hc
    omega
  have hput : ∀ a, Cells.read 0 a h.store.raw = (if a = l.cell l.fill then x else Cells.read 0 a s.store.raw) ∧
      Cells.read false a h.store.missing = if a = l.cell l.fill then false else Cells.read false a s.store.missing :=
    fun a => SampleStore.read_put hwf (l.cell l.fill) a x false
  have hmissing : (h.writeUnlisted L start len x).store.missing = h.store.missing := by
    have hraw := (SampleStore.foldl_setRaw (fun i => (h.lane L).cell (start + i))
      (interpolate (h.anchorBefore L start) x len) (List.range len) h.store).1
    have hkept := congrArg SampleStore.missing hraw
    exact hkept
  have hstore : (s.event.placeOne L (some x)).store = (h.writeUnlisted L start len x).store := by
    rw [hplace]
    rfl
  refine ⟨_, hexec, ?_, fun x' hx' => ?_⟩
  · rw [hplace, State.lane_modLane_same, State.setPiece, State.lane_modLane_same, State.writeUnlisted,
      State.lane_setStore, hhl]
    rfl
  · obtain rfl : x' = x := by
      have h1 : [x'] = [x] := hx'.symm.trans hx
      simpa using h1
    rw [hstore]
    refine ⟨?_, hread, fun a ha => ?_, fun a ha => ?_⟩
    · rw [hother _ hfill, (hput _).1, if_pos rfl]
    · have hne : a ≠ l.cell l.fill := by
        have := ha len (le_refl _)
        rwa [hend] at this
      rw [hother a fun i hi => ha i hi.le, (hput a).1, if_neg hne]
    · rw [hmissing, (hput a).2, if_neg ha]

end Sys2Proof.Machine

/-! PROOF. One missing position beside a record (R37, R38, R40 to R42): the piece extended, full, merged backward or
forward, stopped, or put in the unlisted slot. The statement O10. -/

namespace Sys2Proof.Machine
open Sys2Proof

/-- A BAD frame of one position at the fill point, within the block. -/
theorem exec_one_missing {s : State} {p : Port} {bytes : List Byte} {L : LaneId} (hears : s.hearsSamples p bytes L)
    (hsrc : (s.lane L).source = p) (hbad : (byteAt bytes 2).getLsbD 0 = true)
    (hpos : fieldAt bytes 8 4 = (s.lane L).fill) (hcount : sampleCount (framePayload bytes) = 1)
    (hl : ({ s.lane L with piece := none } : Lane).takesWithinBlock 1) :
    exec (.samplesFrame p bytes) s = .next (((s.event.missed L).coverMissing L (s.lane L).fill).modLane L
      fun l => { l with fill := l.fill + 1 }).grant := by
  have hin : ((s.lane L).fill - (s.lane L).start) % 256 + 1 < 256 := hl.2.2.2.2.2.2.2.2.2.1
  have hexec := exec_samples_one (v := none) hears hsrc hl (by rw [samplesEntry_bad hears hbad, hpos, hcount]; rfl)
  have hone := State.placeOne_missing (s := s.event) (L := L)
    (show ((s.lane L).fill - (s.lane L).start) % 256 ≠ 255 by omega)
  exact hexec.trans (congrArg (fun t : State => Host.Outcome.next t.grant) hone)

/-- The reservations on blocks the records of a span touch are lost on both ports. -/
theorem State.recordTouched_port (s : State) (L : LaneId) (lo hi : Nat) (q : Port) :
    (s.recordTouched L lo hi).port q = { s.port q with
      reservation := Reservation.kept (s.port q).reservation fun v => v.lane == L &&
        decide (lo ≤ (s.lane L).lastOf ((s.lane L).ord v.first)) && decide (v.first ≤ hi) } := by
  cases q <;> rfl

theorem Record.last_succ {r : Record} (h : 1 ≤ r.length) : r.last + 1 = r.start + r.length := by
  unfold Record.last
  omega

/-! ### The current piece -/

/-- The position after a LISTED piece of less than 1,024 positions extends it. -/
theorem missing_extends {b : State} {L : LaneId} {r : Record} (hp : (b.lane L).piece = some (.listed r.start))
    (hl : (b.lane L).list = [r]) (h1 : 1 ≤ r.length) (h2 : r.length < 1024) :
    (b.coverMissing L (r.start + r.length)).lane L =
      { b.lane L with list := [{ r with length := r.length + 1 }], runEnded := false } ∧
    ∀ q, (b.coverMissing L (r.start + r.length)).port q = { b.port q with
      reservation := Reservation.kept (b.port q).reservation fun v => v.lane == L &&
        decide (r.start ≤ (b.lane L).lastOf ((b.lane L).ord v.first)) && decide (v.first ≤ r.start + r.length) } := by
  rw [State.coverMissing_extends hp hl h1, if_pos h2]
  constructor
  · simp only [State.lane_recordTouched, State.setPiece, State.setList, State.lane_modLane_same, ← hp]
  · intro q
    rw [State.recordTouched_port]
    simp only [State.setPiece, State.setList, State.lane_modLane_same, State.port_modLane]
    rfl

/-- The current piece closed with after-anchor 0. -/
def State.pieceFull (b : State) (L : LaneId) (r : Record) : State :=
  ((b.setList L [{ r with state := .live, after := some 0 }]).setPiece L none).recordTouched L r.start r.last

theorem State.pieceFull_lane (b : State) (L : LaneId) (r : Record) : (b.pieceFull L r).lane L = { b.lane L with
    list := [{ r with state := .live, after := some 0 }], piece := none, runEnded := false } := by
  simp only [State.pieceFull, State.lane_recordTouched, State.setPiece, State.setList, State.lane_modLane_same]

theorem State.pieceFull_other (b : State) {L M : LaneId} (r : Record) (h : M ≠ L) :
    (b.pieceFull L r).lane M = b.lane M := by
  rw [State.pieceFull, State.lane_recordTouched, State.setPiece, State.setList, State.lane_modLane_ne _ _ _ _ h,
    State.lane_modLane_ne _ _ _ _ h]

/-- A position after a piece of 1,024 closes it, and attempts a piece of its own. -/
theorem missing_after_full {b : State} {L : LaneId} {r : Record} (hp : (b.lane L).piece = some (.listed r.start))
    (hl : (b.lane L).list = [r]) (h : r.length = 1024) : b.coverMissing L (r.start + 1024) =
      (b.pieceFull L r).attemptPiece L (r.start + 1024) ((b.lane L).ownPiece r.start) := by
  have hfind : findRecord r.start (b.lane L).list = some r := by rw [hl]; simp [findRecord]
  have hcover := State.coverMissing_extends hp hl (by omega : 1 ≤ r.length)
  rw [if_neg (by omega), h] at hcover
  have hupdate : updateRecord r.start (fun r => { r with state := .live, after := some 0 }) [r] =
      [{ r with state := .live, after := some 0 }] := by simp [updateRecord]
  rw [hcover, State.nextPiece, State.closePiece_listed hp hfind, hl, hupdate]
  rfl

/-- The run's next piece, where no valid sample has ended it. -/
theorem missing_next_piece {b : State} {L : LaneId} {r : Record} (hp : (b.lane L).piece = some (.listed r.start))
    (hg : (b.lane L).gapStop = none) (hl : (b.lane L).list = [r]) (h : r.length = 1024)
    (hrun : (b.lane L).runEnded = false) (hc : b.canTake L = true) :
    b.coverMissing L (r.start + 1024) = (b.pieceFull L r).takePiece L (r.start + 1024) ∧
    (b.pieceFull L r).canTake L = true := by
  have hstop : ((b.pieceFull L r).lane L).gapStop = none := by rw [State.pieceFull_lane]; exact hg
  have hown : (b.lane L).ownPiece r.start = some r.start := by rw [Lane.ownPiece, hrun]; rfl
  have hlast : lastUpTo (r.start + 1024) [{ r with state := .live, after := some 0 }] =
      some { r with state := .live, after := some 0 } := by simp [lastUpTo]
  have hafter : startingAfter (r.start + 1024) [{ r with state := .live, after := some 0 }] = [] := by
    simp [startingAfter]
  constructor
  · rw [missing_after_full hp hl h, State.attemptPiece_free hstop, hown, State.pieceFull_lane]
    simp only [hlast, true_or, if_true, State.openPiece, State.pieceFull_lane, hafter, List.head?_nil]
  · rw [← hc]
    refine State.canTake_congr (fun M => ?_) L
    by_cases hM : M = L
    · subst hM
      rw [State.pieceFull_lane, hl]
      exact ⟨rfl, rfl, rfl⟩
    · rw [State.pieceFull_other _ _ hM]
      exact ⟨rfl, rfl, rfl⟩

/-- The position left outside every piece, where a valid sample has ended the run (log 8). -/
theorem missing_after_run {b : State} {L : LaneId} {r : Record} (hp : (b.lane L).piece = some (.listed r.start))
    (hg : (b.lane L).gapStop = none) (hl : (b.lane L).list = [r]) (h : r.length = 1024)
    (hrun : (b.lane L).runEnded = true) :
    b.coverMissing L (r.start + 1024) = (b.pieceFull L r).count L .truncated := by
  have hstop : ((b.pieceFull L r).lane L).gapStop = none := by rw [State.pieceFull_lane]; exact hg
  have hown : (b.lane L).ownPiece r.start = none := by rw [Lane.ownPiece, hrun]; rfl
  have hlast : lastUpTo (r.start + 1024) [{ r with state := .live, after := some 0 }] =
      some { r with state := .live, after := some 0 } := by simp [lastUpTo]
  have hnear : ¬({ r with state := .live, after := some 0 } : Record).last + 1 < r.start + 1024 := by
    simp only [Record.last]
    omega
  have hlong : ¬max ({ r with state := .live, after := some 0 } : Record).last (r.start + 1024) + 1 - r.start ≤
      Config.maxSpan := by
    simp only [Config.maxSpan]
    omega
  rw [missing_after_full hp hl h, State.attemptPiece_free hstop, hown, State.pieceFull_lane]
  simp only [hlast, hnear, hlong, or_false, decide_false, Bool.and_false, Bool.false_eq_true, if_false]
  simp only [reduceCtorEq, if_false, State.dropGap]

/-! ### Right behind a record -/

/-- The record a backward merge reopens (R37). -/
def Record.reopened (r : Record) (before : Int) : Record where
  start := r.start
  length := r.length + 1
  kind := if r.kind = .splice then .splice else .gap
  origin := if r.kind = .splice ∨ r.kind = .gap then r.origin else .link
  state := .opened
  disp := .applied
  ratio := 0
  before := some before
  after := none

/-- A position right behind the list's only record. -/
theorem missing_behind {b : State} {L : LaneId} {r : Record} (hp : (b.lane L).piece = none)
    (hg : (b.lane L).gapStop = none) (hl : (b.lane L).list = [r]) (h1 : 1 ≤ r.length) (h2 : r.length < 1024) :
    b.coverMissing L (r.start + r.length) =
      if r.state = .live ∧ r.disp = .applied then b.reopenPiece L r (r.start + r.length) else b.dropGap L := by
  have hlast : lastUpTo (r.start + r.length) [r] = some r := by simp [lastUpTo]
  have hend := Record.last_succ h1
  have hnear : ¬r.last + 1 < r.start + r.length := by omega
  have hshort : max r.last (r.start + r.length) + 1 - r.start ≤ Config.maxSpan := by
    simp only [Config.maxSpan]
    omega
  rw [State.coverMissing_outside hp, State.attemptPiece_free hg, hl]
  simp only [hlast, hnear, hshort, or_false, decide_true, Bool.and_true, reduceCtorEq, if_false, Record.mergeable,
    Bool.and_eq_true, beq_iff_eq]

theorem missing_reopens {b : State} {L : LaneId} {r : Record} (hl : (b.lane L).list = [r]) (h1 : 1 ≤ r.length) :
    b.reopenPiece L r (r.start + r.length) =
      ((b.setList L [r.reopened (b.anchorBefore L r.start)]).setPiece L (some (.listed r.start))).merged L r.start
        (r.start + r.length) := by
  have hend := Record.last_succ h1
  have hreach : max r.last (r.start + r.length) = r.start + r.length := by omega
  have hlength : r.start + r.length - r.start + 1 = r.length + 1 := by omega
  have hafter : startingAfter r.start [r] = [] := by simp [startingAfter]
  have hupdate : ∀ j : Record, updateRecord r.start (fun _ => j) [r] = [j] := fun j => by simp [updateRecord]
  have hkind : (if r.kind.rank < Kind.gap.rank then Kind.gap else r.kind) =
      if r.kind = .splice then .splice else .gap := by cases r.kind <;> rfl
  have horigin : (if r.kind.rank < Kind.gap.rank then Origin.link else r.origin) =
      if r.kind = .splice ∨ r.kind = .gap then r.origin else .link := by
    cases r.kind <;> simp [Kind.rank]
  simp only [State.reopenPiece, hreach, hlength, hl, hafter, hupdate, List.head?_nil, hkind, horigin]
  rfl

theorem Lane.markWhere_fields (l : Lane) (lo hi n : Nat) (f : Block → Bool) :
    l.markWhere lo hi n f = { l with blocks := (l.markWhere lo hi n f).blocks } := by
  rw [Lane.markWhere_eq]
  refine List.foldlRecOn (motive := fun m : Lane => m = { l with blocks := m.blocks }) _ _ rfl fun m hm j _ => ?_
  obtain ⟨hj, -⟩ := m.markOne_fields lo hi n f j
  generalize m.markOne lo hi n f j = k at hj
  rw [hj, hm]

/-- A merge's marks reach the edit number and the blocks. -/
theorem Lane.mergeMark_fields (l : Lane) (lo hi : Nat) :
    l.mergeMark lo hi = { l with edit := (l.mergeMark lo hi).edit, blocks := (l.mergeMark lo hi).blocks } := by
  have hw := (l.mergeStart lo hi).markWhere_fields lo hi (l.mergeStart lo hi).edit
    fun b => b.rendered || b.state == .rendering
  rw [← Lane.mergeMark_eq] at hw
  have hs := l.mergeStart_fields lo hi
  generalize l.mergeMark lo hi = m at hw
  generalize l.mergeStart lo hi = k at hw hs
  rw [hw, hs]

theorem State.merged_lane (s : State) (L : LaneId) (lo hi : Nat) :
    (s.merged L lo hi).lane L = (s.lane L).mergeMark lo hi := by
  rw [State.merged, State.lane_recordTouched, State.lane_modLane_same]

theorem State.merged_port (s : State) (L : LaneId) (lo hi : Nat) (q : Port) :
    (s.merged L lo hi).port q = { s.port q with
      reservation := Reservation.kept (s.port q).reservation fun v => v.lane == L &&
        decide (lo ≤ (s.lane L).lastOf ((s.lane L).ord v.first)) && decide (v.first ≤ hi) } := by
  rw [State.merged, State.recordTouched_port, State.port_modLane, State.lane_modLane_same, Lane.mergeMark_fields]
  rfl

/-- The backward merge of a LIVE APPLIED record. -/
theorem missing_merges_back {b : State} {L : LaneId} {r : Record} (hp : (b.lane L).piece = none)
    (hg : (b.lane L).gapStop = none) (hl : (b.lane L).list = [r]) (h1 : 1 ≤ r.length) (h2 : r.length < 1024)
    (hlive : r.state = .live) (happ : r.disp = .applied) :
    (b.coverMissing L (r.start + r.length)).lane L = { b.lane L with
      list := [r.reopened (b.anchorBefore L r.start)]
      piece := some (.listed r.start)
      runEnded := false
      edit := ((b.lane L).mergeMark r.start (r.start + r.length)).edit
      blocks := ((b.lane L).mergeMark r.start (r.start + r.length)).blocks } ∧
    ∀ q, (b.coverMissing L (r.start + r.length)).port q = { b.port q with
      reservation := Reservation.kept (b.port q).reservation fun v => v.lane == L &&
        decide (r.start ≤ (b.lane L).lastOf ((b.lane L).ord v.first)) && decide (v.first ≤ r.start + r.length) } := by
  rw [missing_behind hp hg hl h1 h2, if_pos ⟨hlive, happ⟩, missing_reopens hl h1]
  set u := (b.setList L [r.reopened (b.anchorBefore L r.start)]).setPiece L (some (.listed r.start)) with hu
  have hul : u.lane L = { b.lane L with
      list := [r.reopened (b.anchorBefore L r.start)], piece := some (.listed r.start), runEnded := false } := by
    simp only [hu, State.setPiece, State.setList, State.lane_modLane_same]
  have hring : (b.lane L).SameRing (u.lane L) := by
    rw [hul]
    exact ⟨rfl, rfl, rfl, rfl, rfl, rfl⟩
  obtain ⟨hedit, hblocks⟩ := hring.mergeMark (by rw [hul]) r.start (r.start + r.length)
  constructor
  · rw [State.merged_lane, Lane.mergeMark_fields, hedit, hblocks, hul]
  · intro q
    rw [State.merged_port, hul, hu, State.setPiece, State.setList, State.port_modLane, State.port_modLane]
    rfl

/-! ### Right before a record -/

/-- A position right before the list's only record. -/
theorem missing_before {b : State} {L : LaneId} {r : Record} {m : Nat} (hp : (b.lane L).piece = none)
    (hg : (b.lane L).gapStop = none) (hl : (b.lane L).list = [r]) (hm : r.start = m + 1) (h1 : 1 ≤ r.length)
    (h2 : r.length < 1024) : b.coverMissing L m =
      if (r.state = .live ∧ r.disp = .applied) ∧ b.canTake L = true then (b.takePiece L m).absorbAhead L m r
      else b.stopGap L r.start := by
  have hlast : lastUpTo m [r] = none := by simp [lastUpTo, hm]
  have hafter : startingAfter m [r] = [r] := by simp [startingAfter, hm]
  have hnext : ¬m + 1 < r.start := by omega
  have hshort : r.last + 1 - m ≤ Config.maxSpan := by
    have := Record.last_succ h1
    simp only [Config.maxSpan]
    omega
  rw [State.coverMissing_outside hp, State.attemptPiece_free hg, hl]
  simp only [hlast, State.openPiece, hl, hafter, List.head?_cons, hnext, if_false, hshort, decide_true, Bool.and_true,
    Record.mergeable, Bool.and_eq_true, beq_iff_eq]

/-- The record of a new piece at `m` that has absorbed record `r` right after it (R37). -/
def Record.absorbed (r : Record) (m : Nat) (before : Int) : Record where
  start := m
  length := r.length + 1
  kind := if r.kind = .splice then .splice else .gap
  origin := if r.kind = .splice then r.origin else .link
  state := .opened
  disp := .applied
  ratio := 0
  before := some before
  after := none

theorem gapRecord_join {r : Record} {m : Nat} (hm : r.start = m + 1) (h1 : 1 ≤ r.length) (a : Int) :
    (gapRecord m a).join r a = r.absorbed m a := by
  have hend := Record.last_succ h1
  have hgap : (gapRecord m a).last = m := by
    simp only [Record.last, gapRecord]
    omega
  have hlength : max (gapRecord m a).last r.last - (gapRecord m a).start + 1 = r.length + 1 := by
    rw [hgap]
    simp only [gapRecord]
    omega
  unfold Record.join Record.absorbed
  rw [hlength]
  cases r.kind <;> rfl

theorem Record.absorbed_last {r : Record} {m : Nat} (hm : r.start = m + 1) (h1 : 1 ≤ r.length) (a : Int) :
    (r.absorbed m a).last = r.last := by
  simp only [Record.last, Record.absorbed]
  omega

/-- The piece's record taken, the record after it is absorbed. -/
theorem State.absorbAhead_one {s : State} {L : LaneId} {r : Record} {m : Nat} {a : Int} (hm : r.start = m + 1)
    (h1 : 1 ≤ r.length) (hl : (s.lane L).list = [gapRecord m a, r]) (ha : s.anchorBefore L m = a) :
    s.absorbAhead L m r = ((s.setList L [r.absorbed m a]).assess).merged L m r.last := by
  have hremove : removeRecord r.start [gapRecord m a, r] = [gapRecord m a] := by
    simp [removeRecord, gapRecord, hm]
  have hupdate : updateRecord m (fun x => x.join r a) [gapRecord m a] = [r.absorbed m a] := by
    rw [updateRecord, List.map_singleton, if_pos (show (gapRecord m a).start = m from rfl), gapRecord_join hm h1]
  have hfind : findRecord m [r.absorbed m a] = some (r.absorbed m a) := by simp [findRecord, Record.absorbed]
  simp only [State.absorbAhead, hl, hremove, ha, hupdate, hfind, Option.elim_some, Record.absorbed_last hm h1]

theorem State.takePiece_events {s : State} {L : LaneId} (h : s.canTake L = true) (m : Nat) :
    (s.takePiece L m).events = s.events := by
  rw [State.takePiece_record h, State.recordTouched, State.modPort_events, State.modPort_events]
  obtain ⟨-, -, -, -, -, hevents, -⟩ := State.assess_rest (s.modLane L fun l =>
    { l.count .gapPieces with
      list := insertRecord (gapRecord m (s.anchorBefore L m)) l.list
      piece := some (.listed m)
      runEnded := false })
  exact hevents

/-- The taking of a piece's record changes no anchor. -/
theorem State.takePiece_anchorBefore {s : State} {L : LaneId} (h : s.canTake L = true) (m st : Nat) :
    (s.takePiece L m).anchorBefore L st = s.anchorBefore L st := by
  obtain ⟨lo, ar, hl⟩ := (State.takePiece_lane h m).exists_flags
  have hgeometry : ((s.takePiece L m).lane L).start = (s.lane L).start ∧
      ((s.takePiece L m).lane L).fill = (s.lane L).fill ∧ ((s.takePiece L m).lane L).ring = (s.lane L).ring := by
    rw [hl]
    exact ⟨rfl, rfl, rfl⟩
  have hstore := State.takePiece_store h m
  refine State.anchorBefore_congr (State.takePiece_events h m) hgeometry fun pos _ _ _ _ => ?_
  rw [hstore]
  exact ⟨rfl, rfl⟩

/-- A new piece right before a record. -/
theorem State.takePiece_before {b : State} {L : LaneId} {r : Record} {m : Nat} (hl : (b.lane L).list = [r])
    (hm : r.start = m + 1) (hc : b.canTake L = true) :
    ∃ lo ar, (b.takePiece L m).lane L = { (b.lane L).count .gapPieces with
      list := [gapRecord m (b.anchorBefore L m), r]
      piece := some (.listed m)
      runEnded := false
      low := lo
      armed := ar } := by
  have htaken := State.takePiece_lane hc m
  have hinsert : insertRecord (gapRecord m (b.anchorBefore L m)) [r] = [gapRecord m (b.anchorBefore L m), r] :=
    if_pos (show m ≤ r.start by omega)
  rw [hl, hinsert] at htaken
  exact htaken.exists_flags

/-- The forward merge of a LIVE APPLIED record, less the lane's pool flags. -/
theorem missing_merges_ahead {b : State} {L : LaneId} {r : Record} {m : Nat} (hp : (b.lane L).piece = none)
    (hg : (b.lane L).gapStop = none) (hl : (b.lane L).list = [r]) (hm : r.start = m + 1) (h1 : 1 ≤ r.length)
    (h2 : r.length < 1024) (hlive : r.state = .live) (happ : r.disp = .applied) (hc : b.canTake L = true) :
    ∃ lo ar, (b.coverMissing L m).lane L = { (b.lane L).count .gapPieces with
      list := [r.absorbed m (b.anchorBefore L m)]
      piece := some (.listed m)
      runEnded := false
      edit := ((b.lane L).mergeMark m r.last).edit
      blocks := ((b.lane L).mergeMark m r.last).blocks
      low := lo
      armed := ar } := by
  obtain ⟨lo, ar, hul⟩ := State.takePiece_before hl hm hc
  have hcover : b.coverMissing L m = (b.takePiece L m).absorbAhead L m r :=
    (missing_before hp hg hl hm h1 h2).trans (if_pos ⟨⟨hlive, happ⟩, hc⟩)
  have habsorb := State.absorbAhead_one (s := b.takePiece L m) (L := L) hm h1 (by rw [hul])
    (State.takePiece_anchorBefore hc m m)
  rw [hcover, habsorb, State.merged_lane]
  have hflags := State.assess_sameButPoolFlags ((b.takePiece L m).setList L [r.absorbed m (b.anchorBefore L m)]) L
  rw [State.setList, State.lane_modLane_same, hul] at hflags
  obtain ⟨lo', ar', hw⟩ := hflags.exists_flags
  rw [State.setList]
  generalize ((State.modLane (b.takePiece L m) L _).assess.lane L) = w at hw
  have hring : (b.lane L).SameRing w := by
    rw [hw]
    exact ⟨rfl, rfl, rfl, rfl, rfl, rfl⟩
  obtain ⟨hedit, hblocks⟩ := hring.mergeMark (by rw [hw]; rfl) m r.last
  refine ⟨lo', ar', ?_⟩
  rw [Lane.mergeMark_fields, hedit, hblocks, hw]

/-- No piece before a record that cannot be absorbed: the record stops the run's pieces (log 8). -/
theorem missing_stopped {b : State} {L : LaneId} {r : Record} {m : Nat} (hp : (b.lane L).piece = none)
    (hg : (b.lane L).gapStop = none) (hl : (b.lane L).list = [r]) (hm : r.start = m + 1) (h1 : 1 ≤ r.length)
    (h2 : r.length < 1024) (h : ¬(r.state = .live ∧ r.disp = .applied)) :
    b.coverMissing L m = b.stopGap L r.start :=
  (missing_before hp hg hl hm h1 h2).trans (if_neg fun hc => h hc.1)

/-! ### No record to be had -/

/-- With an empty list and no record to be had, the piece takes the unlisted slot or is dropped. -/
theorem missing_unlisted {b : State} {L : LaneId} {m : Nat} (hp : (b.lane L).piece = none)
    (hg : (b.lane L).gapStop = none) (hl : (b.lane L).list = []) (hc : b.canTake L = false) :
    b.coverMissing L m = if (b.lane L).slotOccupied then b.dropGap L
      else ((b.count L .gapPieces).setPiece L (some (.unlisted m 1))).countUnlisted L m := by
  rw [State.coverMissing_opens hp hg hl]
  simp only [State.takePiece, hc, Bool.false_eq_true, if_false]

end Sys2Proof.Machine

/-! PROOF. The clause of O10 about one missing position beside a record, and the statement O10. -/

namespace Sys2Proof.Machine
open Sys2Proof

/-- A second counter beside that of missing positions. -/
theorem Lane.count_missing_then (l : Lane) {c : Ctr} (h : c.index.val ≠ 1) :
    ((l.count .missing).count c).counters = (l.counters.set 1 (min (l.counters[1] + 1) 4294967295)).set c.index.val
      (min (l.counters[c.index.val] + 1) 4294967295) := by
  have hkeep : (l.count .missing).counters[c.index.val] = l.counters[c.index.val] :=
    Vector.getElem_set_ne (i := 1) (by decide) (by omega) (Ne.symm h)
  rw [← hkeep]
  rfl

theorem Lane.count_gap_counters (l : Lane) : ((l.count .missing).count .gapPieces).counters =
    (l.counters.set 1 (min (l.counters[1] + 1) 4294967295)).set 5 (min (l.counters[5] + 1) 4294967295) :=
  l.count_missing_then (c := .gapPieces) (by decide)

/-- The piece a missing position puts in the unlisted slot: counted, tallied and armed no more. -/
theorem State.takenUnlisted_lane (b : State) (L : LaneId) (m : Nat) :
    (((b.count L .gapPieces).setPiece L (some (.unlisted m 1))).countUnlisted L m).lane L =
      { ((b.lane L).count .gapPieces).count .unlisted with
        piece := some (.unlisted m 1)
        runEnded := false
        armed := false
        blocks := ((b.lane L).setBlock ((b.lane L).ord m)
          { (b.lane L).block ((b.lane L).ord m) with tally := ((b.lane L).block ((b.lane L).ord m)).tally + 1 }).blocks } := by
  unfold State.countUnlisted
  dsimp only
  split
  · rw [State.lane_raise, State.lane_modLane_same, State.setPiece, State.lane_modLane_same, State.count_lane]
    rfl
  · rw [State.lane_modLane_same, State.setPiece, State.lane_modLane_same, State.count_lane]
    rfl

theorem State.takenUnlisted_port (b : State) (L : LaneId) (m : Nat) (q : Port) :
    (((b.count L .gapPieces).setPiece L (some (.unlisted m 1))).countUnlisted L m).port q = { b.port q with
      entries := if (b.lane L).armed then (b.port q).entries.set (entryIndex 2 (some L)).val
          (b.foldedEntry q .unlisted (some L) m 0)
        else (b.port q).entries } := by
  have harmed : (((b.count L .gapPieces).setPiece L (some (.unlisted m 1))).lane L).armed = (b.lane L).armed := by
    rw [State.setPiece, State.lane_modLane_same, State.count_lane]
    rfl
  unfold State.countUnlisted
  rw [harmed]
  dsimp only
  by_cases h : (b.lane L).armed = true
  · rw [if_pos h, if_pos h, State.port_raise, State.foldedEntry_eq]
    cases q <;> rfl
  · rw [if_neg h, if_neg h]
    cases q <;> rfl

/-- What a BAD frame of one position makes of the state, before the grant. -/
def State.oneMissing (s : State) (L : LaneId) : State :=
  ((s.event.missed L).coverMissing L (s.lane L).fill).modLane L fun l => { l with fill := l.fill + 1 }

theorem Lane.slotOccupied_false {l : Lane} (hs : ∀ sp, l.span = some sp → sp.form = .listed) (hp : l.piece = none) :
    l.slotOccupied = false := by
  simp only [Lane.slotOccupied, hp]
  cases hsp : l.span with
  | none => rfl
  | some sp =>
    simp only [hs sp hsp]
    rfl

/-- A position left outside every piece. -/
theorem Lane.count_truncated (l : Lane) : ({ (l.count .missing).count .truncated with fill := l.fill + 1 } : Lane) =
    { l with
      fill := l.fill + 1
      counters := (l.counters.set 1 (min (l.counters[1] + 1) 4294967295)).set 10
        (min (l.counters[10] + 1) 4294967295) } :=
  congrArg (fun c => ({ l with fill := l.fill + 1, counters := c } : Lane))
    (l.count_missing_then (c := .truncated) (by decide))

theorem State.pieceFull_anchorBefore (b : State) (L : LaneId) (r : Record) (st : Nat) :
    (b.pieceFull L r).anchorBefore L st = b.anchorBefore L st := by
  have hstore : (b.pieceFull L r).store = b.store := by
    simp only [State.pieceFull, State.recordTouched_store, State.setPiece, State.setList, State.modLane_store]
  have hevents : (b.pieceFull L r).events = b.events := by
    simp [State.pieceFull, State.recordTouched, State.setPiece, State.setList]
  refine State.anchorBefore_congr hevents (by rw [State.pieceFull_lane]; exact ⟨rfl, rfl, rfl⟩) fun pos _ _ _ _ => ?_
  rw [hstore]
  exact ⟨rfl, rfl⟩

section
variable {s : State} {L : LaneId}

theorem State.afterMissed_lane : (s.event.missed L).lane L = (s.lane L).count .missing := State.missed_lane ..

theorem State.afterMissed_port (q : Port) : (s.event.missed L).port q = s.port q := by
  rw [State.missed_port, State.port_event]

theorem State.afterMissed_canTake : (s.event.missed L).canTake L = s.canTake L := s.event.missed_canTake L L

theorem State.afterMissed_anchorBefore {st : Nat} (hwf : s.storeWf) (hst : (s.lane L).start ≤ (s.lane L).fill)
    (h : st = (s.lane L).fill ∨
      (s.lane L).ring.Nodup ∧ (s.lane L).fill + 1 < st + 256 * (s.lane L).ring.length) :
    (s.event.missed L).anchorBefore L st = s.event.anchorBefore L st :=
  s.event.missed_anchorBefore L hwf h hst

theorem State.afterMissed_mergeMark (lo hi : Nat) :
    (((s.event.missed L).lane L).mergeMark lo hi).edit = ((s.lane L).mergeMark lo hi).edit ∧
    (((s.event.missed L).lane L).mergeMark lo hi).blocks = ((s.lane L).mergeMark lo hi).blocks := by
  have hring : (s.lane L).SameRing ((s.lane L).count .missing) := ⟨rfl, rfl, rfl, rfl, rfl, rfl⟩
  rw [State.afterMissed_lane]
  exact hring.mergeMark rfl lo hi

theorem State.oneMissing_extends {r : Record} (hp : (s.lane L).piece = some (.listed r.start))
    (hl : (s.lane L).list = [r]) (h1 : 1 ≤ r.length) (h2 : r.length < 1024)
    (hend : r.start + r.length = (s.lane L).fill) :
    (s.oneMissing L).lane L = { s.lane L with
      fill := (s.lane L).fill + 1
      list := [{ r with length := r.length + 1 }]
      runEnded := false
      counters := (s.lane L).counters.set 1 (min ((s.lane L).counters[1] + 1) 4294967295) } ∧
    ∀ q, (s.oneMissing L).port q = { s.port q with
      reservation := Reservation.kept (s.port q).reservation fun v => v.lane == L &&
        decide (r.start ≤ (s.lane L).lastOf ((s.lane L).ord v.first)) && decide (v.first ≤ (s.lane L).fill) } := by
  obtain ⟨hlane, hport⟩ := missing_extends (b := s.event.missed L) (L := L) (r := r)
    (by rw [State.afterMissed_lane]; exact hp) (by rw [State.afterMissed_lane]; exact hl) h1 h2
  rw [hend, State.afterMissed_lane] at hlane hport
  constructor
  · rw [State.oneMissing, State.lane_modLane_same, hlane]
    rfl
  · intro q
    rw [State.oneMissing, State.port_modLane, hport, State.afterMissed_port]
    rfl

theorem State.oneMissing_merges_back {r : Record} (hwf : s.storeWf) (hst : (s.lane L).start ≤ (s.lane L).fill)
    (hr : (s.lane L).ringAsOpened) (hp : (s.lane L).piece = none) (hg : (s.lane L).gapStop = none)
    (hl : (s.lane L).list = [r]) (h1 : 1 ≤ r.length) (h2 : r.length < 1024)
    (hend : r.start + r.length = (s.lane L).fill) (hlive : r.state = .live) (happ : r.disp = .applied) :
    (s.oneMissing L).lane L = { s.lane L with
      fill := (s.lane L).fill + 1
      list := [r.reopened (s.event.anchorBefore L r.start)]
      piece := some (.listed r.start)
      runEnded := false
      counters := (s.lane L).counters.set 1 (min ((s.lane L).counters[1] + 1) 4294967295)
      edit := ((s.lane L).mergeMark r.start (s.lane L).fill).edit
      blocks := ((s.lane L).mergeMark r.start (s.lane L).fill).blocks } ∧
    ∀ q, (s.oneMissing L).port q = { s.port q with
      reservation := Reservation.kept (s.port q).reservation fun v => v.lane == L &&
        decide (r.start ≤ (s.lane L).lastOf ((s.lane L).ord v.first)) && decide (v.first ≤ (s.lane L).fill) } := by
  obtain ⟨hsize, hnodup, -⟩ := hr
  obtain ⟨hlane, hport⟩ := missing_merges_back (b := s.event.missed L) (L := L) (r := r)
    (by rw [State.afterMissed_lane]; exact hp) (by rw [State.afterMissed_lane]; exact hg)
    (by rw [State.afterMissed_lane]; exact hl) h1 h2 hlive happ
  obtain ⟨hedit, hblocks⟩ := State.afterMissed_mergeMark (s := s) (L := L) r.start (r.start + r.length)
  have hanchor := State.afterMissed_anchorBefore (s := s) (L := L) (st := r.start) hwf hst
    (.inr ⟨hnodup, by omega⟩)
  rw [hedit, hblocks, hanchor, hend, State.afterMissed_lane] at hlane
  rw [hend, State.afterMissed_lane] at hport
  constructor
  · rw [State.oneMissing, State.lane_modLane_same, hlane]
    rfl
  · intro q
    rw [State.oneMissing, State.port_modLane, hport, State.afterMissed_port]
    rfl

/-- The attempt drops the position: it is counted TRUNCATED, and no port changes. -/
theorem State.oneMissing_drops
    (h : (s.event.missed L).coverMissing L (s.lane L).fill = (s.event.missed L).dropGap L) :
    (s.oneMissing L).lane L = { s.lane L with
      fill := (s.lane L).fill + 1
      counters := ((s.lane L).counters.set 1 (min ((s.lane L).counters[1] + 1) 4294967295)).set 10
        (min ((s.lane L).counters[10] + 1) 4294967295) } ∧
    ∀ q, (s.oneMissing L).port q = s.port q := by
  constructor
  · rw [State.oneMissing, State.lane_modLane_same, h, State.dropGap, State.count_lane, State.afterMissed_lane]
    exact Lane.count_truncated _
  · intro q
    rw [State.oneMissing, State.port_modLane, h, State.dropGap, State.count, State.port_modLane,
      State.afterMissed_port]

theorem State.oneMissing_next_piece {r : Record} (hwf : s.storeWf) (hst : (s.lane L).start ≤ (s.lane L).fill)
    (hp : (s.lane L).piece = some (.listed r.start)) (hg : (s.lane L).gapStop = none)
    (hl : (s.lane L).list = [r]) (h2 : r.length = 1024) (hend : r.start + 1024 = (s.lane L).fill)
    (hrun : (s.lane L).runEnded = false) (hc : s.canTake L = true) :
    ∃ lo ar, (s.oneMissing L).lane L = { s.lane L with
      fill := (s.lane L).fill + 1
      list := [{ r with state := .live, after := some 0 },
        gapRecord (s.lane L).fill (s.event.anchorBefore L (s.lane L).fill)]
      piece := some (.listed (s.lane L).fill)
      runEnded := false
      counters := ((s.lane L).counters.set 1 (min ((s.lane L).counters[1] + 1) 4294967295)).set 5
        (min ((s.lane L).counters[5] + 1) 4294967295)
      low := lo
      armed := ar } := by
  obtain ⟨hcover, hcan⟩ := missing_next_piece (b := s.event.missed L) (L := L) (r := r)
    (by rw [State.afterMissed_lane]; exact hp) (by rw [State.afterMissed_lane]; exact hg)
    (by rw [State.afterMissed_lane]; exact hl) h2 (by rw [State.afterMissed_lane]; exact hrun)
    (by rw [State.afterMissed_canTake]; exact hc)
  obtain ⟨lo, ar, hlane⟩ := (State.takePiece_lane hcan (r.start + 1024)).exists_flags
  have hanchor := State.afterMissed_anchorBefore (s := s) (L := L) (st := (s.lane L).fill) hwf hst (.inl rfl)
  have hinsert : ∀ a, insertRecord (gapRecord (s.lane L).fill a) [{ r with state := .live, after := some 0 }] =
      [{ r with state := .live, after := some 0 }, gapRecord (s.lane L).fill a] := fun a =>
    if_neg (show ¬(s.lane L).fill ≤ r.start by omega)
  rw [State.pieceFull_anchorBefore, State.pieceFull_lane, State.afterMissed_lane, hend, hanchor, hinsert] at hlane
  refine ⟨lo, ar, ?_⟩
  rw [State.oneMissing, State.lane_modLane_same, ← hend, hcover, hend, hlane, ← Lane.count_gap_counters]
  rfl

theorem State.oneMissing_after_run {r : Record}
    (hp : (s.lane L).piece = some (.listed r.start)) (hg : (s.lane L).gapStop = none)
    (hl : (s.lane L).list = [r]) (h2 : r.length = 1024) (hend : r.start + 1024 = (s.lane L).fill)
    (hrun : (s.lane L).runEnded = true) :
    (s.oneMissing L).lane L = { s.lane L with
      fill := (s.lane L).fill + 1
      list := [{ r with state := .live, after := some 0 }]
      piece := none
      runEnded := false
      counters := ((s.lane L).counters.set 1 (min ((s.lane L).counters[1] + 1) 4294967295)).set 10
        (min ((s.lane L).counters[10] + 1) 4294967295) } := by
  have hcover := missing_after_run (b := s.event.missed L) (L := L) (r := r)
    (by rw [State.afterMissed_lane]; exact hp) (by rw [State.afterMissed_lane]; exact hg)
    (by rw [State.afterMissed_lane]; exact hl) h2 (by rw [State.afterMissed_lane]; exact hrun)
  rw [State.oneMissing, State.lane_modLane_same, ← hend, hcover, State.count_lane, State.pieceFull_lane,
    State.afterMissed_lane, hend]
  exact congrArg (fun l : Lane => { l with
    list := [{ r with state := .live, after := some 0 }], piece := none, runEnded := false })
    (s.lane L).count_truncated

theorem State.oneMissing_merges_ahead {r : Record} (hwf : s.storeWf) (hst : (s.lane L).start ≤ (s.lane L).fill)
    (hp : (s.lane L).piece = none) (hg : (s.lane L).gapStop = none) (hl : (s.lane L).list = [r])
    (hnext : r.start = (s.lane L).fill + 1) (h1 : 1 ≤ r.length) (h2 : r.length < 1024) (hlive : r.state = .live)
    (happ : r.disp = .applied) (hc : s.canTake L = true) :
    ∃ lo ar, (s.oneMissing L).lane L = { s.lane L with
      fill := (s.lane L).fill + 1
      list := [r.absorbed (s.lane L).fill (s.event.anchorBefore L (s.lane L).fill)]
      piece := some (.listed (s.lane L).fill)
      runEnded := false
      edit := ((s.lane L).mergeMark (s.lane L).fill r.last).edit
      blocks := ((s.lane L).mergeMark (s.lane L).fill r.last).blocks
      counters := ((s.lane L).counters.set 1 (min ((s.lane L).counters[1] + 1) 4294967295)).set 5
        (min ((s.lane L).counters[5] + 1) 4294967295)
      low := lo
      armed := ar } := by
  obtain ⟨lo, ar, hlane⟩ := missing_merges_ahead (b := s.event.missed L) (L := L) (r := r)
    (by rw [State.afterMissed_lane]; exact hp) (by rw [State.afterMissed_lane]; exact hg)
    (by rw [State.afterMissed_lane]; exact hl) hnext h1 h2 hlive happ (by rw [State.afterMissed_canTake]; exact hc)
  obtain ⟨hedit, hblocks⟩ := State.afterMissed_mergeMark (s := s) (L := L) (s.lane L).fill r.last
  have hanchor := State.afterMissed_anchorBefore (s := s) (L := L) (st := (s.lane L).fill) hwf hst (.inl rfl)
  rw [hedit, hblocks, hanchor, State.afterMissed_lane] at hlane
  refine ⟨lo, ar, ?_⟩
  rw [State.oneMissing, State.lane_modLane_same, hlane, ← Lane.count_gap_counters]
  rfl

theorem State.oneMissing_stopped {r : Record} (hp : (s.lane L).piece = none) (hg : (s.lane L).gapStop = none)
    (hl : (s.lane L).list = [r]) (hnext : r.start = (s.lane L).fill + 1) (h1 : 1 ≤ r.length) (h2 : r.length < 1024)
    (hn : ¬(r.state = .live ∧ r.disp = .applied)) :
    (s.oneMissing L).lane L = { s.lane L with
      fill := (s.lane L).fill + 1
      gapStop := some r.start
      counters := ((s.lane L).counters.set 1 (min ((s.lane L).counters[1] + 1) 4294967295)).set 10
        (min ((s.lane L).counters[10] + 1) 4294967295) } ∧
    ∀ q, (s.oneMissing L).port q = s.port q := by
  have hcover := missing_stopped (b := s.event.missed L) (L := L) (r := r)
    (by rw [State.afterMissed_lane]; exact hp) (by rw [State.afterMissed_lane]; exact hg)
    (by rw [State.afterMissed_lane]; exact hl) hnext h1 h2 hn
  constructor
  · rw [State.oneMissing, State.lane_modLane_same, hcover, State.stopGap, State.dropGap, State.count_lane,
      State.lane_modLane_same, State.afterMissed_lane]
    exact congrArg (fun l : Lane => { l with gapStop := some r.start }) (s.lane L).count_truncated
  · intro q
    rw [State.oneMissing, State.port_modLane, hcover, State.stopGap, State.dropGap, State.count, State.port_modLane,
      State.port_modLane, State.afterMissed_port]

theorem Lane.count_block (l : Lane) (c : Ctr) (j : Nat) : (l.count c).block j = l.block j := rfl

theorem Lane.count_ord (l : Lane) (c : Ctr) (pos : Nat) : (l.count c).ord pos = l.ord pos := rfl

theorem Lane.count_setBlock (l : Lane) (c : Ctr) (j : Nat) (b : Block) :
    ((l.count c).setBlock j b).blocks = (l.setBlock j b).blocks := rfl

theorem Lane.count_unlisted (l : Lane) : (((l.count .missing).count .gapPieces).count .unlisted).counters =
    ((l.counters.set 1 (min (l.counters[1] + 1) 4294967295)).set 5 (min (l.counters[5] + 1) 4294967295)).set 9
      (min (l.counters[9] + 1) 4294967295) := by
  have hnine : ((l.count .missing).count .gapPieces).counters[9] = l.counters[9] := by
    rw [l.count_gap_counters]
    exact (Vector.getElem_set_ne (i := 5) (by decide) (by decide) (by decide)).trans
      (Vector.getElem_set_ne (i := 1) (by decide) (by decide) (by decide))
  rw [← hnine, ← l.count_gap_counters]
  rfl

theorem Lane.count_fields (l : Lane) (c : Ctr) : l.count c = { l with counters := (l.count c).counters } := rfl

/-- The lane with three counted: nothing but its counters differs. -/
theorem Lane.count_unlisted_fields (l : Lane) : ((l.count .missing).count .gapPieces).count .unlisted = { l with
    counters := ((l.counters.set 1 (min (l.counters[1] + 1) 4294967295)).set 5
      (min (l.counters[5] + 1) 4294967295)).set 9 (min (l.counters[9] + 1) 4294967295) } := by
  rw [Lane.count_fields, l.count_unlisted]
  rfl

theorem State.oneMissing_unlisted (hp : (s.lane L).piece = none) (hg : (s.lane L).gapStop = none)
    (hl : (s.lane L).list = []) (hc : s.canTake L = false) (hfree : (s.lane L).slotOccupied = false) :
    (s.oneMissing L).lane L = { s.lane L with
      fill := (s.lane L).fill + 1
      piece := some (.unlisted (s.lane L).fill 1)
      runEnded := false
      armed := false
      counters := (((s.lane L).counters.set 1 (min ((s.lane L).counters[1] + 1) 4294967295)).set 5
        (min ((s.lane L).counters[5] + 1) 4294967295)).set 9 (min ((s.lane L).counters[9] + 1) 4294967295)
      blocks := ((s.lane L).setBlock ((s.lane L).ord (s.lane L).fill) { (s.lane L).block ((s.lane L).ord (s.lane L).fill)
        with tally := ((s.lane L).block ((s.lane L).ord (s.lane L).fill)).tally + 1 }).blocks } ∧
    ∀ q, (s.oneMissing L).port q = { s.port q with
      entries := if (s.lane L).armed then (s.port q).entries.set (entryIndex 2 (some L)).val
          (s.event.foldedEntry q .unlisted (some L) (s.lane L).fill 0)
        else (s.port q).entries } := by
  have hcover := missing_unlisted (b := s.event.missed L) (L := L) (m := (s.lane L).fill)
    (by rw [State.afterMissed_lane]; exact hp) (by rw [State.afterMissed_lane]; exact hg)
    (by rw [State.afterMissed_lane]; exact hl) (by rw [State.afterMissed_canTake]; exact hc)
  have hslot : ((s.event.missed L).lane L).slotOccupied = false := by rw [State.afterMissed_lane]; exact hfree
  rw [hslot, if_neg Bool.false_ne_true] at hcover
  constructor
  · rw [State.oneMissing, State.lane_modLane_same, hcover, State.takenUnlisted_lane, State.afterMissed_lane,
      Lane.count_setBlock, Lane.count_block, Lane.count_ord]
    rw [Lane.count_unlisted_fields]
  · intro q
    have hfold : (s.event.missed L).foldedEntry q .unlisted (some L) (s.lane L).fill 0 =
        s.event.foldedEntry q .unlisted (some L) (s.lane L).fill 0 :=
      State.foldedEntry_congr (by rw [State.missed_port]) rfl _ _
    rw [State.oneMissing, State.port_modLane, hcover, State.takenUnlisted_port, State.afterMissed_port,
      State.afterMissed_lane, hfold]
    rfl

end

/-- The clause of O10 about one missing position beside a record. -/
theorem missing_beside_record (s : State) (p : Port) (bytes : List Byte) (L : LaneId) (hwf : s.storeWf)
    (hears : s.hearsSamples p bytes L) :
    let l := s.lane L
    let before : State := { s with events := s.events + 1 }
    let m := l.fill
    let missing := min (l.counters[1] + 1) 4294967295
    let truncated := min (l.counters[10] + 1) 4294967295
    let reaches := fun (q : PortRec) (lo hi : Nat) => Reservation.kept q.reservation fun v =>
      v.lane == L && decide (lo ≤ l.lastOf (l.ord v.first)) && decide (v.first ≤ hi)
    l.source = p → (byteAt bytes 2).getLsbD 0 = true → fieldAt bytes 8 4 = m →
    sampleCount (framePayload bytes) = 1 → ({ l with piece := none } : Lane).takesWithinBlock 1 → l.ringAsOpened →
    (∀ r, l.list = [r] → 1 ≤ r.length → r.length < 1024 → r.start + r.length = m →
      (l.piece = some (.listed r.start) → ∃ t : State, exec (.samplesFrame p bytes) s = .next t.grant ∧
        t.lane L = { l with
          fill := m + 1
          list := [{ r with length := r.length + 1 }]
          runEnded := false
          counters := l.counters.set 1 missing } ∧
        ∀ q, t.port q = { s.port q with reservation := reaches (s.port q) r.start m }) ∧
      (l.piece = none → r.state = .live → r.disp = .applied →
        ∃ t : State, exec (.samplesFrame p bytes) s = .next t.grant ∧
          t.lane L = { l with
            fill := m + 1
            list := [{
              start := r.start
              length := r.length + 1
              kind := if r.kind = .splice then .splice else .gap
              origin := if r.kind = .splice ∨ r.kind = .gap then r.origin else .link
              state := .opened
              disp := .applied
              ratio := 0
              before := some (before.anchorBefore L r.start)
              after := none }]
            piece := some (.listed r.start)
            runEnded := false
            counters := l.counters.set 1 missing
            edit := (l.mergeMark r.start m).edit
            blocks := (l.mergeMark r.start m).blocks } ∧
          ∀ q, t.port q = { s.port q with reservation := reaches (s.port q) r.start m }) ∧
      (l.piece = none → ¬(r.state = .live ∧ r.disp = .applied) →
        ∃ t : State, exec (.samplesFrame p bytes) s = .next t.grant ∧
          t.lane L = { l with
            fill := m + 1
            counters := (l.counters.set 1 missing).set 10 truncated } ∧
          ∀ q, t.port q = s.port q)) ∧
    (∀ r, l.list = [r] → r.length = 1024 → r.start + 1024 = m → l.piece = some (.listed r.start) →
      (l.runEnded = false → s.canTake L = true → ∃ t : State, exec (.samplesFrame p bytes) s = .next t.grant ∧
        (t.lane L).fill = m + 1 ∧ (t.lane L).piece = some (.listed m) ∧ (t.lane L).runEnded = false ∧
        (t.lane L).list = [{ r with state := .live, after := some 0 }, {
          start := m
          length := 1
          kind := .gap
          origin := .link
          state := .opened
          disp := .applied
          ratio := 0
          before := some (before.anchorBefore L m)
          after := none }] ∧
        (t.lane L).counters = (l.counters.set 1 missing).set 5 (min (l.counters[5] + 1) 4294967295)) ∧
      (l.runEnded = true → ∃ t : State, exec (.samplesFrame p bytes) s = .next t.grant ∧
        t.lane L = { l with
          fill := m + 1
          list := [{ r with state := .live, after := some 0 }]
          piece := none
          runEnded := false
          counters := (l.counters.set 1 missing).set 10 truncated })) ∧
    (∀ r, l.list = [r] → l.piece = none → r.start = m + 1 → 1 ≤ r.length → r.length < 1024 →
      (r.state = .live → r.disp = .applied → s.canTake L = true →
        ∃ t : State, exec (.samplesFrame p bytes) s = .next t.grant ∧
          (t.lane L).list = [{
            start := m
            length := r.length + 1
            kind := if r.kind = .splice then .splice else .gap
            origin := if r.kind = .splice then r.origin else .link
            state := .opened
            disp := .applied
            ratio := 0
            before := some (before.anchorBefore L m)
            after := none }] ∧
          (t.lane L).piece = some (.listed m) ∧ (t.lane L).edit = (l.mergeMark m r.last).edit ∧
          (t.lane L).blocks = (l.mergeMark m r.last).blocks ∧
          (t.lane L).counters = (l.counters.set 1 missing).set 5 (min (l.counters[5] + 1) 4294967295)) ∧
      (¬(r.state = .live ∧ r.disp = .applied) →
        ∃ t : State, exec (.samplesFrame p bytes) s = .next t.grant ∧
          t.lane L = { l with
            fill := m + 1
            gapStop := some r.start
            counters := (l.counters.set 1 missing).set 10 truncated } ∧
          ∀ q, t.port q = s.port q)) ∧
    (l.list = [] → s.canTake L = false → l.piece = none →
      ((∀ sp, l.span = some sp → sp.form = .listed) →
        ∃ t : State, exec (.samplesFrame p bytes) s = .next t.grant ∧
          t.lane L = { l with
            fill := m + 1
            piece := some (.unlisted m 1)
            runEnded := false
            armed := false
            counters := ((l.counters.set 1 missing).set 5 (min (l.counters[5] + 1) 4294967295)).set 9
              (min (l.counters[9] + 1) 4294967295)
            blocks := (l.setBlock (l.ord m)
              { l.block (l.ord m) with tally := (l.block (l.ord m)).tally + 1 }).blocks } ∧
          ∀ q, t.port q = { s.port q with
            entries := if l.armed then (s.port q).entries.set (entryIndex 2 (some L)).val
                (before.foldedEntry q .unlisted (some L) m 0)
              else (s.port q).entries }) ∧
      (∀ sp, l.span = some sp → sp.form = .unlisted →
        ∃ t : State, exec (.samplesFrame p bytes) s = .next t.grant ∧
          t.lane L = { l with
            fill := m + 1
            counters := (l.counters.set 1 missing).set 10 truncated } ∧
          ∀ q, t.port q = s.port q)) := by
  intro l before m missing truncated reaches hsrc hbad hpos hcount hl hring
  have hexec : exec (.samplesFrame p bytes) s = .next (s.oneMissing L).grant :=
    exec_one_missing hears hsrc hbad hpos hcount hl
  have hg : l.gapStop = none := hl.2.2.2.2.1
  have hst : l.start ≤ l.fill := hl.takes.start
  refine ⟨fun r hlist h1 h2 hend => ⟨fun hp => ?_, fun hp hlive happ => ?_, fun hp hn => ?_⟩,
    fun r hlist h2 hend hp => ⟨fun hrun hc => ?_, fun hrun => ?_⟩,
    fun r hlist hp hnext h1 h2 => ⟨fun hlive happ hc => ?_, fun hn => ?_⟩,
    fun hlist hc hp => ⟨fun hspan => ?_, fun sp hspan hform => ?_⟩⟩
  · exact ⟨_, hexec, State.oneMissing_extends hp hlist h1 h2 hend⟩
  · exact ⟨_, hexec, State.oneMissing_merges_back hwf hst hring hp hg hlist h1 h2 hend hlive happ⟩
  · have hcover := (missing_behind (b := s.event.missed L) (L := L) (r := r) (by rw [State.afterMissed_lane]; exact hp)
      (by rw [State.afterMissed_lane]; exact hg) (by rw [State.afterMissed_lane]; exact hlist) h1 h2).trans (if_neg hn)
    rw [hend] at hcover
    exact ⟨_, hexec, State.oneMissing_drops hcover⟩
  · obtain ⟨lo, ar, hlane⟩ := State.oneMissing_next_piece hwf hst hp hg hlist h2 hend hrun hc
    exact ⟨_, hexec, by rw [hlane], by rw [hlane], by rw [hlane], by rw [hlane]; rfl, by rw [hlane]⟩
  · exact ⟨_, hexec, State.oneMissing_after_run hp hg hlist h2 hend hrun⟩
  · obtain ⟨lo, ar, hlane⟩ := State.oneMissing_merges_ahead hwf hst hp hg hlist hnext h1 h2 hlive happ hc
    exact ⟨_, hexec, by rw [hlane]; rfl, by rw [hlane], by rw [hlane], by rw [hlane], by rw [hlane]⟩
  · exact ⟨_, hexec, State.oneMissing_stopped hp hg hlist hnext h1 h2 hn⟩
  · refine ⟨_, hexec, State.oneMissing_unlisted hp hg hlist hc ?_⟩
    exact Lane.slotOccupied_false hspan hp
  · have hcover := missing_unlisted (b := s.event.missed L) (L := L) (m := l.fill)
      (by rw [State.afterMissed_lane]; exact hp) (by rw [State.afterMissed_lane]; exact hg)
      (by rw [State.afterMissed_lane]; exact hlist) (by rw [State.afterMissed_canTake]; exact hc)
    have hslot : ((s.event.missed L).lane L).slotOccupied = true := by
      rw [State.afterMissed_lane]
      change l.slotOccupied = true
      simp [Lane.slotOccupied, hspan, hform]
    rw [if_pos hslot] at hcover
    exact ⟨_, hexec, State.oneMissing_drops hcover⟩

/-- Settles O10: a run of missing positions, one beside a record, the marks, the write of an unlisted span, and the
sample that ends it. -/
theorem missingPositionsOpenAGapPiece : Obligations.MissingPositionsOpenAGapPiece :=
  ⟨samples_bad_within, missing_beside_record, mergeMark_clause, writeUnlisted_clause, sample_closes_unlisted⟩

end Sys2Proof.Machine

/-! PROOF. The release of a block, part by part (R23, R59 to R61, R63, R181, R182): the LOG frames, the grade window, the
released lane, and what a grant and the settling of a lane leave of it. -/

namespace Sys2Proof.Machine
open Sys2Proof

/-! ### The grant and a lane -/

theorem Lane.nextBlock_startable {l : Lane} {j : Nat} (h : l.nextBlock = some j) : l.startable j = true := by
  have hmem : j ∈ l.ordinals.filter l.startable := by
    unfold Lane.nextBlock at h
    dsimp only at h
    split at h
    · obtain rfl := Option.some.inj h
      exact List.mem_of_find?_eq_some ‹_›
    · exact List.mem_of_mem_head? h
  exact (List.mem_filter.1 hmem).2

theorem State.nextGrant_startable {s : State} {M : LaneId} {j : Nat} (h : s.nextGrant = some (M, j)) :
    (s.lane M).startable j = true := by
  obtain ⟨K, -, hK⟩ := List.exists_of_findSome?_eq_some h
  obtain ⟨i, hi, he⟩ := Option.map_eq_some_iff.1 hK
  obtain ⟨rfl, rfl⟩ := Prod.mk.inj he
  exact Lane.nextBlock_startable hi

/-- A grant leaves a lane, or takes one of its startable blocks. -/
theorem State.grant_takes (s : State) (M : LaneId) : s.grant.lane M = s.lane M ∨
    ∃ j, (s.lane M).startable j = true ∧
      s.grant.lane M = (s.lane M).setBlock j { (s.lane M).block j with state := .rendering, touch := none } := by
  rcases s.grant_cases with h | ⟨L, j, -, hn, h⟩ <;> rw [h]
  · exact .inl rfl
  · rw [State.startRender, State.lane_setEngine]
    by_cases hM : M = L
    · subst hM
      exact .inr ⟨j, State.nextGrant_startable hn, State.lane_setLane_same _ _ _⟩
    · exact .inl (State.lane_setLane_ne _ _ _ _ hM)

theorem State.grant_lane_closed {s : State} {M : LaneId} (h : (s.lane M).isOpen = false) :
    s.grant.lane M = s.lane M := by
  rcases s.grant_takes M with hg | ⟨j, hj, -⟩
  · exact hg
  · simp [Lane.startable, h] at hj

/-- A ring entry with nothing to render keeps its block. -/
theorem State.grant_entry {s : State} {M : LaneId} {e : Nat}
    (ha : ((s.lane M).blocks.getD e {}).state ≠ .analysed) (hd : ((s.lane M).blocks.getD e {}).state ≠ .dirty) :
    (s.grant.lane M).blocks.getD e {} = (s.lane M).blocks.getD e {} := by
  rcases s.grant_takes M with hg | ⟨j, hj, hg⟩
  · rw [hg]
  · have hstate : ((s.lane M).block j).state = .analysed ∨ ((s.lane M).block j).state = .dirty := by
      simp only [Lane.startable, Bool.and_eq_true] at hj
      exact ((Lane.renderable_iff _ _).1 hj.1.1.2).1
    have hne : (s.lane M).entryOf j ≠ e := by
      rintro rfl
      exact hstate.elim ha hd
    rw [hg]
    simp only [Lane.setBlock, List.getD_eq_getElem?_getD, List.getElem?_set_ne hne]

/-! ### LOG frames (R61) -/

/-- `frames` carry `starts` for the block at `first`, each frame but the last full. -/
def LogFrame.Cut (first : Nat) (frames : List LogFrame) (starts : List Nat) : Prop :=
  frames.flatMap LogFrame.starts = starts ∧
  ∀ i f, frames[i]? = some f →
    f.first = first ∧ 1 ≤ f.starts.length ∧ f.starts.length ≤ 16 ∧ (f.more = true ↔ i + 1 < frames.length) ∧
      (i + 1 < frames.length → f.starts.length = 16)

theorem LogFrame.Cut.nil (first : Nat) : LogFrame.Cut first [] [] := ⟨rfl, by simp⟩

/-- No frames are cut of no starts. -/
theorem LogFrame.Cut.nil_iff {first : Nat} {frames : List LogFrame} {starts : List Nat}
    (h : LogFrame.Cut first frames starts) : frames = [] ↔ starts = [] := by
  obtain ⟨hflat, hframe⟩ := h
  constructor
  · rintro rfl
    exact hflat.symm
  · rintro rfl
    cases frames with
    | nil => rfl
    | cons f fs =>
      obtain ⟨-, hlen, -⟩ := hframe 0 f rfl
      have hf : f.starts = [] := (List.append_eq_nil_iff.1 hflat).1
      simp [hf] at hlen

/-- A frame of the first 16 starts before the frames of the rest. -/
theorem LogFrame.Cut.cons {first : Nat} {frames : List LogFrame} {starts : List Nat} (hne : starts ≠ [])
    (h : LogFrame.Cut first frames (starts.drop 16)) :
    LogFrame.Cut first (⟨first, starts.take 16, !(starts.drop 16).isEmpty⟩ :: frames) starts := by
  have hpos : 0 < starts.length := List.length_pos_iff.2 hne
  refine ⟨by rw [List.flatMap_cons, h.1, List.take_append_drop], fun i f hf => ?_⟩
  cases i with
  | zero =>
    obtain rfl := Option.some.inj hf
    have hmore : 0 + 1 < frames.length + 1 ↔ starts.drop 16 ≠ [] := by
      rw [ne_eq, ← h.nil_iff, ← ne_eq, ← List.length_pos_iff]
      omega
    simp only [List.length_cons, List.length_take, Bool.not_eq_true', List.isEmpty_eq_false_iff]
    refine ⟨trivial, by omega, by omega, hmore.symm, fun hlt => ?_⟩
    have hrest := List.length_pos_iff.2 (hmore.1 hlt)
    rw [List.length_drop] at hrest
    omega
  | succ i =>
    obtain ⟨h1, h2, h3, h4, h5⟩ := h.2 i f hf
    simp only [List.length_cons, Nat.add_lt_add_iff_right]
    exact ⟨h1, h2, h3, h4, h5⟩

theorem cutLog_cut (first fuel : Nat) (starts : List Nat) (h : starts.length ≤ fuel) :
    LogFrame.Cut first (cutLog first fuel starts) starts := by
  induction fuel generalizing starts with
  | zero =>
    obtain rfl := List.length_eq_zero_iff.1 (Nat.le_zero.1 h)
    exact .nil first
  | succ fuel ih =>
    cases starts with
    | nil => exact .nil first
    | cons a as =>
      refine .cons (List.cons_ne_nil a as) (ih _ ?_)
      have hmax : Config.logFrameMax = 16 := rfl
      rw [List.length_drop]
      simp only [List.length_cons] at h ⊢
      omega

/-! ### Records frozen and completed (R59, R60) -/

theorem Lane.freezeAt_eq (l : Lane) (j : Nat) (r : Record) : l.freezeAt j r =
    if r.state = .live ∧ r.start ≤ l.lastOf j ∧ l.firstOf j ≤ r.last then { r with state := .frozen } else r := by
  simp [Lane.freezeAt, Record.meets]

/-- Freezing changes a record's state only. -/
theorem Lane.freezeAt_frame (l : Lane) (j : Nat) (r : Record) :
    l.freezeAt j r = { r with state := (l.freezeAt j r).state } := by
  unfold Lane.freezeAt
  split <;> rfl

theorem Lane.freezeAt_completes (l : Lane) (j : Nat) (r : Record) :
    l.completes j (l.freezeAt j r) = l.completes j r := by
  rw [Lane.freezeAt_frame]
  rfl

theorem Lane.freezeAt_start (l : Lane) (j : Nat) (r : Record) : (l.freezeAt j r).start = r.start := by
  rw [Lane.freezeAt_frame]

/-- The starts of the records that the release of block `j` completes. -/
def Lane.completedStarts (l : Lane) (j : Nat) : List Nat := (l.list.filter (l.completes j)).map Record.start

/-- The LOG frames that the release of block `j` queues. -/
def Lane.cutFrames (l : Lane) (j : Nat) : List LogFrame :=
  if l.log then cutLog (l.firstOf j) (l.completedStarts j).length (l.completedStarts j) else []

theorem Lane.cutFrames_cut (l : Lane) (j : Nat) :
    LogFrame.Cut (l.firstOf j) (l.cutFrames j) (if l.log then l.completedStarts j else []) := by
  unfold Lane.cutFrames
  split
  · exact cutLog_cut _ _ _ le_rfl
  · exact .nil _

/-- The list that the release of block `j` leaves. -/
def Lane.listAfter (l : Lane) (j : Nat) : List Record :=
  if l.log then l.list.map (l.freezeAt j) else (l.list.map (l.freezeAt j)).filter fun r => !l.completes j r

theorem Lane.complete_eq (l : Lane) (j : Nat) :
    l.complete j = { l with list := l.listAfter j, logQueue := l.logQueue ++ l.cutFrames j } := by
  have hdone : ((l.list.map (l.freezeAt j)).filter (l.completes j)).map Record.start = l.completedStarts j := by
    have hp : l.completes j ∘ l.freezeAt j = l.completes j := funext (l.freezeAt_completes j)
    have hs : Record.start ∘ l.freezeAt j = Record.start := funext (l.freezeAt_start j)
    rw [List.filter_map, hp, List.map_map, hs, Lane.completedStarts]
  unfold Lane.complete Lane.listAfter Lane.cutFrames
  dsimp only
  rw [hdone]
  split
  · rfl
  · rw [List.append_nil]

/-! ### Window and grade (R181, R182) -/

theorem foldl_countStart (l : Lane) (rs : List Record) (w : List WindowEntry) :
    rs.foldl (countStart l) w =
      w.map fun e => { e with count := e.count + (rs.filter fun r => l.ord r.start == e.block).length } := by
  induction rs generalizing w with
  | nil => simp
  | cons r rs ih =>
    rw [List.foldl_cons, ih, countStart, List.map_map]
    refine List.map_congr_left fun e _ => ?_
    by_cases he : e.block = l.ord r.start
    · simp only [Function.comp_apply, List.filter_cons, he, beq_self_eq_true, if_true, List.length_cons]
      congr 1
      omega
    · simp [he, Ne.symm he]

theorem Lane.windowAfter_eq (l : Lane) (j : Nat) :
    let joined := l.window ++ [{ block := j, count := (l.block j).tally }]
    l.windowAfter j = (if 16 < joined.length then joined.tail else joined).map fun e => { e with
      count := e.count + ((l.list.filter (l.completes j)).filter fun r => (r.start - l.start) / 256 == e.block).length } :=
  foldl_countStart l _ _

/-! ### The released lane -/

/-- The lane after the release of block `j`, field by field. -/
theorem Lane.released_eq (l : Lane) (j : Nat) : l.released j = { l with
    list := l.listAfter j
    logQueue := l.logQueue ++ l.cutFrames j
    window := l.windowAfter j
    grade := gradeOf l.activeProfile ((l.windowAfter j).map (·.count)).sum
    blocks := l.blocks.set (l.entryOf j) {}
    release := l.release + l.lengthOf j
    counters := l.counters.set 2 (min (l.counters[2] + 1) 4294967295) } := by
  unfold Lane.released
  rw [Lane.complete_eq]
  rfl

/-! ### The part after the release, before the lane is settled -/

/-- The frame sent and the reservations on the block lost. -/
def State.handOut (s : State) (p : Port) (L : LaneId) : State :=
  let l := s.lane L
  let j := l.oldest
  let sent := s.modPort p fun q => { q with pointer := L }.send (s.restoredFrame L j q.order)
  (sent.modPort .A (·.loseIf (· == ⟨L, l.firstOf j⟩))).modPort .B (·.loseIf (· == ⟨L, l.firstOf j⟩))

/-- The lane released and the pool assessed. -/
def State.releasedAssessed (s : State) (p : Port) (L : LaneId) : State :=
  ((s.handOut p L).modLane L (Lane.released · (s.lane L).oldest)).assess

/-- GRADE raised where the grade changed. -/
def State.handedOver (s : State) (p : Port) (L : LaneId) : State :=
  let t := s.releasedAssessed p L
  if (t.lane L).grade = (s.lane L).grade then t
  else t.raise .grade (some L) (t.lane L).release (t.lane L).grade.number

theorem State.release_eq (s : State) (p : Port) (L : LaneId) : s.release p L = (s.handedOver p L).settleLane L := rfl

theorem State.handOut_port (s : State) (p : Port) (L : LaneId) (q : Port) : (s.handOut p L).port q = { s.port q with
    sent := if q = p then (s.port q).sent ++ [s.restoredFrame L (s.lane L).oldest (s.port q).order] else (s.port q).sent
    pointer := if q = p then L else (s.port q).pointer
    reservation := Reservation.kept (s.port q).reservation fun v => v == ⟨L, (s.lane L).firstOf (s.lane L).oldest⟩ } := by
  cases p <;> cases q <;> rfl

theorem State.handOut_lane (s : State) (p : Port) (L M : LaneId) : (s.handOut p L).lane M = s.lane M := by
  simp [State.handOut]

theorem State.handOut_events (s : State) (p : Port) (L : LaneId) : (s.handOut p L).events = s.events := by
  cases p <;> rfl

/-- The pool flags alone may differ from the released lane. -/
theorem State.releasedAssessed_lane (s : State) (p : Port) (L : LaneId) :
    ((s.lane L).released (s.lane L).oldest).sameButPoolFlags ((s.releasedAssessed p L).lane L) := by
  have h := ((s.handOut p L).modLane L (Lane.released · (s.lane L).oldest)).assess_sameButPoolFlags L
  rwa [State.lane_modLane_same, State.handOut_lane] at h

theorem State.releasedAssessed_port (s : State) (p : Port) (L : LaneId) (q : Port) :
    ((s.handOut p L).port q).SameButEntries ((s.releasedAssessed p L).port q) ∧
    ∀ i : Fin 42, i.val / 7 ≠ 2 → ((s.releasedAssessed p L).port q).entries[i.val] = (s.port q).entries[i.val] := by
  obtain ⟨hsame, hentries⟩ := ((s.handOut p L).modLane L (Lane.released · (s.lane L).oldest)).assess_port q
  rw [State.port_modLane] at hsame
  refine ⟨hsame, fun i hi => ?_⟩
  have hport := s.handOut_port p L q
  refine (hentries i hi).trans ?_
  simp only [State.port_modLane, hport]

theorem State.releasedAssessed_events (s : State) (p : Port) (L : LaneId) :
    (s.releasedAssessed p L).events = s.events := by
  obtain ⟨-, -, -, -, -, hev, -⟩ := ((s.handOut p L).modLane L (Lane.released · (s.lane L).oldest)).assess_rest
  exact hev.trans (s.handOut_events p L)

theorem State.handedOver_lane (s : State) (p : Port) (L : LaneId) :
    ((s.lane L).released (s.lane L).oldest).sameButPoolFlags ((s.handedOver p L).lane L) := by
  have h := s.releasedAssessed_lane p L
  unfold State.handedOver
  dsimp only
  split
  · exact h
  · rwa [State.lane_raise]

theorem State.handedOver_port (s : State) (p : Port) (L : LaneId) (q : Port) :
    ((s.handOut p L).port q).SameButEntries ((s.handedOver p L).port q) := by
  have h := (s.releasedAssessed_port p L q).1
  unfold State.handedOver
  dsimp only
  split
  · exact h
  · exact h.trans (State.raise_sameButEntries _ _ _ _ _ _)

theorem State.handedOver_events (s : State) (p : Port) (L : LaneId) : (s.handedOver p L).events = s.events := by
  unfold State.handedOver
  dsimp only
  split
  · exact s.releasedAssessed_events p L
  · obtain ⟨-, -, -, -, hev, -⟩ := (s.releasedAssessed p L).raise_rest .grade (some L)
      ((s.releasedAssessed p L).lane L).release ((s.releasedAssessed p L).lane L).grade.number
    exact hev.trans (s.releasedAssessed_events p L)

/-- The GRADE entry of the lane, by whether the grade changed. -/
theorem State.handedOver_gradeEntry (s : State) (p : Port) (L : LaneId) (q : Port) :
    ((s.handedOver p L).port q).entries[(entryIndex 4 (some L)).val] =
      if ((s.handedOver p L).lane L).grade = (s.lane L).grade then (s.port q).entries[(entryIndex 4 (some L)).val]
      else s.foldedEntry q .grade (some L) ((s.handedOver p L).lane L).release ((s.handedOver p L).lane L).grade.number := by
  have hcat : (entryIndex 4 (some L)).val / 7 ≠ 2 := by
    have := L.isLt
    show (7 * 4 + L.val) / 7 ≠ 2
    omega
  have hentry := (s.releasedAssessed_port p L q).2 _ hcat
  have hlane : (s.handedOver p L).lane L = (s.releasedAssessed p L).lane L := by
    unfold State.handedOver
    dsimp only
    split
    · rfl
    · exact State.lane_raise ..
  rw [hlane]
  unfold State.handedOver
  dsimp only
  split
  · exact hentry
  · exact (State.raise_entry _ .grade _ _ _ _).trans (State.foldedEntry_congr hentry (s.releasedAssessed_events p L) _ _)

/-- The other entries stand, but those of category POOL. -/
theorem State.handedOver_entry (s : State) (p : Port) (L : LaneId) (q : Port) {i : Fin 42} (hi : i.val / 7 ≠ 2)
    (hg : i ≠ entryIndex 4 (some L)) : ((s.handedOver p L).port q).entries[i.val] = (s.port q).entries[i.val] := by
  have h := (s.releasedAssessed_port p L q).2 i hi
  unfold State.handedOver
  dsimp only
  split
  · exact h
  · exact (State.raise_entry_ne _ _ _ _ _ _ _ hg).trans h

end Sys2Proof.Machine

/-! PROOF. The settling of a lane after a release (R19, R23, R63), and the statement O40. -/

namespace Sys2Proof.Machine
open Sys2Proof

/-! ### GO, the discard and the drain, where they are due -/

theorem State.goIfDue_lane (t : State) (L : LaneId) : (t.goIfDue L).lane L = { t.lane L with
    held := ((t.goIfDue L).lane L).held
    afterHold := ((t.goIfDue L).lane L).afterHold } := by
  unfold State.goIfDue State.when
  split
  · dsimp only
    rw [State.sendGo_eq, State.lane_setPort, State.lane_setLane_same]
  · rfl

theorem State.goIfDue_port (t : State) (L : LaneId) (q : Port) : (t.goIfDue L).port q = { t.port q with
    flow := ((t.goIfDue L).port q).flow } := by
  unfold State.goIfDue State.when
  split
  · dsimp only
    rw [State.sendGo_port]
  · rfl

/-- An ACTIVE lane with nothing landed and a slot to place in is not held once GO is sent. -/
theorem State.goIfDue_canPlace {t : State} {L : LaneId} (hs : (t.lane L).state = .active)
    (hl : (t.lane L).landing = []) (hslot : (t.lane L).canPlace = true) :
    ((t.goIfDue L).lane L).held = false ∧
    ((t.lane L).held = true → (t.port (t.lane L).source).link = .up →
      { lane := L, hold := false, fill := (t.lane L).fill } ∈ ((t.goIfDue L).port (t.lane L).source).flow) := by
  by_cases hh : (t.lane L).held = true
  · have hgo : t.goIfDue L = t.sendGo L := if_pos ((Lane.goDue_iff _).2 ⟨hh, hs, hl, .inl hslot⟩)
    rw [hgo]
    refine ⟨?_, fun _ hup => ?_⟩
    · rw [State.sendGo_eq, State.lane_setPort, State.lane_setLane_same]
    · rw [State.sendGo_port, if_pos ⟨rfl, hup⟩]
      exact List.mem_append_right _ (List.mem_singleton.2 rfl)
  · have hgo : t.goIfDue L = t := State.goIfDue_of_not (by
      rw [Bool.eq_false_iff, ne_eq, Lane.goDue_iff]
      exact fun h => hh h.1)
    rw [hgo]
    exact ⟨Bool.eq_false_iff.2 hh, fun h => absurd h hh⟩

theorem State.drainIfDue_of_active {t : State} {L : LaneId} (hs : (t.lane L).state = .active) :
    t.drainIfDue L = t := State.drainIfDue_of_not (by
  rw [Bool.eq_false_iff, ne_eq, Lane.drainDone_iff, hs]
  exact fun h => LaneState.noConfusion h.1)

/-- The completion of a drain reaches of a port's frames and pointer nothing. -/
theorem State.drainIfDue_sent (t : State) (L : LaneId) (q : Port) :
    ((t.drainIfDue L).port q).sent = (t.port q).sent ∧ ((t.drainIfDue L).port q).pointer = (t.port q).pointer := by
  unfold State.drainIfDue State.when
  split
  · have hport := t.completeDrain_port L q
    rw [hport]
    exact ⟨rfl, rfl⟩
  · exact ⟨rfl, rfl⟩

/-- The completion of a drain leaves the GRADE entries. -/
theorem State.completeDrain_gradeEntry (t : State) (L : LaneId) (q : Port) :
    ((t.completeDrain L).port q).entries[(entryIndex 4 (some L)).val] =
      (t.port q).entries[(entryIndex 4 (some L)).val] := by
  have hL := L.isLt
  have hpool : (entryIndex 4 (some L)).val / 7 ≠ 2 := by
    show (7 * 4 + L.val) / 7 ≠ 2
    omega
  have hlane : entryIndex 4 (some L) ≠ entryIndex 0 (some L) := by
    refine Fin.ne_of_val_ne ?_
    show 7 * 4 + L.val ≠ 7 * 0 + L.val
    omega
  have hassess := (((t.answerDrains L).withClosed L).assess_port q).2 _ hpool
  have hraise := State.raise_entry_ne ((t.answerDrains L).withClosed L).assess .laneDrained (some L)
    (t.lane L).release 0 q _ hlane
  rw [State.completeDrain_eq]
  refine hraise.trans (hassess.trans ?_)
  simp only [State.withClosed_port, State.answerDrains_port]
  rfl

/-! ### The settling -/

/-- What a lane does by itself sends no frame and moves no pointer. -/
theorem State.settleLane_sent (t : State) (L : LaneId) (q : Port) :
    ((t.settleLane L).port q).sent = (t.port q).sent ∧ ((t.settleLane L).port q).pointer = (t.port q).pointer := by
  have hwaits := (((State.Waits.refl L t).openSlot.landIfDue.fixIfDue.finishIfDue).port q).1
  rw [State.settleLane_eq, State.grant_port]
  generalize (((t.openSlot L).landIfDue L).fixIfDue L).finishIfDue L = u at hwaits
  have hgo := u.goIfDue_port L q
  obtain ⟨hsent, hpointer⟩ := ((u.goIfDue L).discardIfDue L).drainIfDue_sent L q
  rw [hsent, hpointer, State.discardIfDue_port, hgo, hwaits]
  exact ⟨rfl, rfl⟩

/-- Nor does it move the release point of an ACTIVE lane. -/
theorem State.settleLane_release {t : State} {L : LaneId} (hs : (t.lane L).state = .active) :
    ((t.settleLane L).lane L).release = (t.lane L).release ∧
    ((t.settleLane L).lane L).counters[2] = (t.lane L).counters[2] := by
  have hwaits := (State.Waits.refl L t).openSlot.landIfDue.fixIfDue.finishIfDue
  rw [State.settleLane_eq]
  generalize (((t.openSlot L).landIfDue L).fixIfDue L).finishIfDue L = u at hwaits
  have hgo := u.goIfDue_lane L
  have hdiscard := (u.goIfDue L).discardIfDue_lane L
  have hstate : (((u.goIfDue L).discardIfDue L).lane L).state = .active := by
    rw [hdiscard, hgo]
    exact hwaits.state.trans hs
  rw [State.drainIfDue_of_active hstate, State.grant_lane, hdiscard, hgo]
  exact ⟨hwaits.release, hwaits.released⟩

/-- What an ACTIVE lane with nothing landed does by itself: it takes up a FREE slot, and sends GO. -/
theorem State.settleLane_slot {t : State} {L : LaneId} (hs : (t.lane L).state = .active)
    (hl : (t.lane L).landing = []) :
    t.settleLane L = (((t.openSlot L).goIfDue L).discardIfDue L).grant := by
  have hopen := t.openSlot_lane L
  have hs' : ((t.openSlot L).lane L).state = .active := by rw [hopen, hs]
  have hland : ((t.openSlot L).lane L).landingDue = false := by
    rw [Lane.landingDue, hopen]
    simp [hl]
  have hfinal : ((t.openSlot L).lane L).finalDue = false := by simp [Lane.finalDue, hs']
  have hfinish : ((t.openSlot L).lane L).finishDue = false := by simp [Lane.finishDue, hs']
  have hdone : ((((t.openSlot L).goIfDue L).discardIfDue L).lane L).state = .active := by
    rw [State.discardIfDue_lane, State.goIfDue_lane, hs']
  rw [State.settleLane_eq, State.landIfDue_of_not hland, State.fixIfDue_of_not hfinal,
    State.finishIfDue_of_not hfinish, State.drainIfDue_of_active hdone]

section
variable {t : State} {L : LaneId}

theorem State.settleLane_slot_lane (hs : (t.lane L).state = .active) (hl : (t.lane L).landing = []) :
    ∃ b h a r, (t.settleLane L).lane L = { t.lane L with blocks := b, held := h, afterHold := a, retiring := r } := by
  rw [State.settleLane_slot hs hl, State.grant_lane, State.discardIfDue_lane, State.goIfDue_lane, State.openSlot_lane]
  exact ⟨_, _, _, _, rfl⟩

theorem State.settleLane_slot_port (hs : (t.lane L).state = .active) (hl : (t.lane L).landing = []) (q : Port) :
    (t.settleLane L).port q = { t.port q with flow := (((t.openSlot L).goIfDue L).port q).flow } := by
  rw [State.settleLane_slot hs hl, State.grant_port, State.discardIfDue_port, State.goIfDue_port, State.openSlot_port]

/-- A ring entry with nothing to render is left as the taking up of a slot leaves it. -/
theorem State.settleLane_slot_entry (hs : (t.lane L).state = .active) (hl : (t.lane L).landing = []) {e : Nat} {b : Block}
    (he : ((t.openSlot L).lane L).blocks.getD e {} = b) (ha : b.state ≠ .analysed) (hd : b.state ≠ .dirty) :
    ((t.settleLane L).lane L).blocks.getD e {} = b := by
  have hblocks : ((((t.openSlot L).goIfDue L).discardIfDue L).lane L).blocks = ((t.openSlot L).lane L).blocks := by
    rw [State.discardIfDue_lane, State.goIfDue_lane]
  rw [State.settleLane_slot hs hl, State.grant_entry (by rw [hblocks, he]; exact ha) (by rw [hblocks, he]; exact hd),
    hblocks, he]

/-- An empty ring entry stays empty or is taken up. -/
theorem State.openSlot_entry {e : Nat} (he : (t.lane L).blocks.getD e {} = {}) :
    ((t.openSlot L).lane L).blocks.getD e {} = {} ∨ ((t.openSlot L).lane L).blocks.getD e {} = { state := .filling } := by
  unfold State.openSlot
  split
  · rw [State.lane_setLane_same]
    simp only [Lane.openFillSlot, Lane.setBlock, List.getD_eq_getElem?_getD, List.getElem?_set] at he ⊢
    split
    · split
      · exact .inr rfl
      · exact .inl rfl
    · exact .inl he
  · exact .inl he

end

/-- What a DRAINING lane whose analysis is finished can have due by itself. -/
theorem State.settleLane_finished {t : State} {L : LaneId} (hs : (t.lane L).state = .draining)
    (hl : (t.lane L).landing = []) (hf : (t.lane L).final ≠ none) (hfin : (t.lane L).finished = true) :
    t.settleLane L = ((t.discardIfDue L).drainIfDue L).grant := by
  obtain ⟨f, hf⟩ := Option.ne_none_iff_exists'.mp hf
  have hslot : t.openSlot L = t := if_neg (by simp [Lane.fillSlotFree, Lane.mayFill, hf])
  have hland : (t.lane L).landingDue = false := by simp [Lane.landingDue, hl]
  have hfinal : (t.lane L).finalDue = false := by simp [Lane.finalDue, hf]
  have hfinish : (t.lane L).finishDue = false := by simp [Lane.finishDue, hfin]
  have hgo : (t.lane L).goDue = false := by simp [Lane.goDue, hs]
  rw [State.settleLane_eq, hslot, State.landIfDue_of_not hland, State.fixIfDue_of_not hfinal,
    State.finishIfDue_of_not hfinish, State.goIfDue_of_not hgo]

end Sys2Proof.Machine

/-! PROOF. The release of the oldest unreleased block, by the lane's state (R23, R59 to R63, R181, R182). The statement
O40. -/

namespace Sys2Proof.Machine
open Sys2Proof

/-! ### The arbiter's choice -/

/-- A RESTORED frame is presented only while no LOG frame remains (R61, R162). -/
theorem State.chosen_restored {s : State} {p : Port} {L : LaneId} (h : s.chosen p = some (.restored L)) :
    (s.lane L).logQueue = [] := by
  have hpresented : ∃ K, s.presented p K = some (.restored L) := by
    unfold State.chosen at h
    dsimp only at h
    split at h
    · split at h
      · simp at h
      · simp at h
      · simp at h
      · obtain ⟨K, -, hK⟩ := List.exists_of_findSome?_eq_some h
        exact ⟨K, hK⟩
    · cases h
  obtain ⟨K, hK⟩ := hpresented
  unfold State.presented at hK
  dsimp only at hK
  split at hK
  · split at hK
    · simp at hK
    · split at hK
      · rename_i hrestored
        simp only [Option.some.injEq, Choice.restored.injEq] at hK
        subst hK
        simp only [Lane.presentsRestored, Bool.and_eq_true, List.isEmpty_iff] at hrestored
        exact hrestored.1
      · cases hK
  · cases hK

theorem exec_release {s : State} {p : Port} {L : LaneId} (h : s.chosen p = some (.restored L)) :
    exec (.release p) s = .next ((s.event.handedOver p L).settleLane L) := by
  show execRelease p s = _
  rw [execRelease, h]
  rfl

/-! ### The records completed, by the block released -/

/-- Off the final block: the records whose end lies in the block (R60). -/
theorem Lane.completes_of_not_final {l : Lane} {j : Nat} (h : l.isFinal j = false) : l.completes j =
    fun r => decide (l.firstOf j ≤ r.last) && decide (r.last ≤ l.lastOf j) := by
  funext r
  rw [Lane.completes, h, Bool.false_and, Bool.or_false]

/-- At the final block: every record that touches it (R63). -/
theorem Lane.completes_of_final {l : Lane} {j : Nat} (h : l.isFinal j = true) : l.completes j =
    fun r => decide (l.firstOf j ≤ r.last) && (decide (r.last ≤ l.lastOf j) || decide (r.start ≤ l.lastOf j)) := by
  funext r
  rw [Lane.completes, h, Bool.true_and]

theorem Lane.map_freezeAt (l : Lane) (j : Nat) : l.list.map (l.freezeAt j) = l.list.map fun r =>
    if r.state = .live ∧ r.start ≤ l.lastOf j ∧ l.firstOf j ≤ r.last then { r with state := .frozen } else r :=
  List.map_congr_left fun r _ => l.freezeAt_eq j r

/-! ### The lane handed over -/

section
variable (s : State) (p : Port) (L : LaneId)

/-- The lane after the release and before it is settled. -/
theorem State.handedOver_fields : ∃ lo ar, (s.handedOver p L).lane L =
    let l := s.lane L
    let k := l.oldest
    { l with
      list := l.listAfter k
      logQueue := l.logQueue ++ l.cutFrames k
      window := l.windowAfter k
      grade := gradeOf l.activeProfile ((l.windowAfter k).map (·.count)).sum
      blocks := l.blocks.set (l.entryOf k) {}
      release := l.release + l.lengthOf k
      counters := l.counters.set 2 (min (l.counters[2] + 1) 4294967295)
      low := lo
      armed := ar } := by
  obtain ⟨lo, ar, h⟩ := (s.handedOver_lane p L).exists_flags
  rw [Lane.released_eq] at h
  exact ⟨lo, ar, h⟩

/-- The ports after the release and before the lane is settled. -/
theorem State.handedOver_fieldsOfPort (q : Port) : ∃ es, (s.handedOver p L).port q = { s.port q with
    sent := if q = p then (s.port q).sent ++ [s.restoredFrame L (s.lane L).oldest (s.port q).order] else (s.port q).sent
    pointer := if q = p then L else (s.port q).pointer
    reservation := Reservation.kept (s.port q).reservation fun v => v == ⟨L, (s.lane L).firstOf (s.lane L).oldest⟩
    entries := es } := by
  have h := s.handedOver_port p L q
  rw [State.handOut_port] at h
  exact ⟨_, h⟩

/-- The slot of the block released is empty. -/
theorem State.handedOver_entry_empty :
    ((s.handedOver p L).lane L).blocks.getD ((s.lane L).entryOf (s.lane L).oldest) {} = {} := by
  obtain ⟨lo, ar, h⟩ := s.handedOver_fields p L
  rw [h]
  exact (s.lane L).block_setBlock_empty (s.lane L).oldest

end

/-! ### An ACTIVE lane -/

section
variable {s : State} {p : Port} {L : LaneId}

/-- The slot of the block released is left without its flag and its mark. -/
theorem release_clears_slot (hs : (s.lane L).state = .active) (hl : (s.lane L).landing = []) :
    let b := (((s.handedOver p L).settleLane L).lane L).blocks.getD ((s.lane L).entryOf (s.lane L).oldest) {}
    b.rendered = false ∧ b.mark = none := by
  obtain ⟨lo, ar, h⟩ := s.handedOver_fields p L
  have hs' : ((s.handedOver p L).lane L).state = .active := by rw [h]; exact hs
  have hl' : ((s.handedOver p L).lane L).landing = [] := by rw [h]; exact hl
  dsimp only
  rcases State.openSlot_entry (s.handedOver_entry_empty p L) with he | he <;>
    rw [State.settleLane_slot_entry hs' hl' he (by decide) (by decide)] <;> exact ⟨rfl, rfl⟩

/-- The fill point that waited for the slot has it (R23): the slot is FILLING, and a held lane's GO is entered. -/
theorem release_refills_slot (hs : (s.lane L).state = .active) (hl : (s.lane L).landing = [])
    (hf : (s.lane L).final = none) (hring : (s.lane L).ringAsOpened) (hrel : (s.lane L).start ≤ (s.lane L).release)
    (hfill : (s.lane L).fill = (s.lane L).firstOf ((s.lane L).oldest + (s.lane L).ring.length))
    (htop : (s.lane L).fill < 4294967296) :
    let t := (s.handedOver p L).settleLane L
    (t.lane L).block ((s.lane L).oldest + (s.lane L).ring.length) = { state := .filling } ∧ (t.lane L).held = false ∧
    ((s.lane L).held = true → (s.port (s.lane L).source).link = .up →
      { lane := L, hold := false, fill := (s.lane L).fill } ∈ (t.port (s.lane L).source).flow) := by
  obtain ⟨hsize, -, hlen⟩ := hring
  obtain ⟨es, hport⟩ := s.handedOver_fieldsOfPort p L (s.lane L).source
  have hempty := s.handedOver_entry_empty p L
  obtain ⟨lo, ar, h⟩ := s.handedOver_fields p L
  generalize s.handedOver p L = u at h hempty hport
  set l := s.lane L with hldef
  set k := l.oldest with hk
  set m := u.lane L with hm
  have hs' : m.state = .active := by rw [h]; exact hs
  have hl' : m.landing = [] := by rw [h]; exact hl
  have hfill' : m.fill = l.fill := by rw [h]
  have hheld : m.held = l.held := by rw [h]
  have hsource : m.source = l.source := by rw [h]
  have hblocks : m.blocks.length = m.ring.length := by
    rw [h]
    simp only [List.length_set, hlen]
  have hringlen : m.ring.length = l.ring.length := by rw [h]
  have hlength : l.lengthOf k = 256 := if_neg (by simp [hf])
  have hord : m.ord m.fill = k + l.ring.length := by
    rw [hfill', hfill, h]
    simp only [Lane.ord, Lane.firstOf, Config.blockLen]
    omega
  have hold : m.oldest = k + 1 := by
    have hrelease : m.release = l.release + 256 := by rw [h, ← hlength]
    have hstart : m.start = l.start := by rw [h]
    simp only [hk, Lane.oldest, Config.blockLen, hrelease, hstart]
    omega
  have hsame : m.entryOf (k + l.ring.length) = l.entryOf k := by
    simp only [Lane.entryOf, Lane.ringSize, hringlen, Nat.add_mod_right]
  have hblock : m.block (k + l.ring.length) = {} := by
    rw [Lane.block, hsame]
    exact hempty
  have hmay : m.mayFill = true := by
    have hopen : m.isOpen = true := by
      rw [Lane.isOpen_iff, hs']
      decide
    have hfin : m.final = none := by
      rw [h]
      exact hf
    have htop' : m.fill < Config.topPos := by
      rw [hfill']
      exact htop
    have hin : m.inRing (m.ord m.fill) = true := by
      simp only [Lane.inRing, hord, hold, Lane.ringSize, hringlen, Bool.and_eq_true, decide_eq_true_eq]
      omega
    simp [Lane.mayFill, hopen, hfin, htop', hin]
  have hfree : m.fillSlotFree = true := by simp [Lane.fillSlotFree, hmay, hord, hblock]
  have htaken : u.openSlot L = u.setLane L m.openFillSlot := if_pos hfree
  have hlane : (u.openSlot L).lane L = m.openFillSlot := by
    rw [htaken, State.lane_setLane_same]
  have hfilling : m.openFillSlot.block (k + l.ring.length) = { state := .filling } := by
    rw [Lane.openFillSlot, hord]
    exact Lane.block_setBlock_self hblocks (by omega) _ _
  have hentry : ((u.openSlot L).lane L).blocks.getD (l.entryOf k) {} = { state := .filling } := by
    rw [hlane, ← hsame]
    exact hfilling
  have hplace : ((u.openSlot L).lane L).canPlace = true := by
    have hmay' : m.openFillSlot.mayFill = true := hmay
    have hord' : m.openFillSlot.ord m.openFillSlot.fill = k + l.ring.length := hord
    rw [hlane]
    simp [Lane.canPlace, hmay', hord', hfilling]
  obtain ⟨hunheld, hgo⟩ := State.goIfDue_canPlace (t := u.openSlot L) (L := L) (by rw [hlane]; exact hs')
    (by rw [hlane]; exact hl') hplace
  obtain ⟨b, hd, a, r, hfields⟩ := State.settleLane_slot_lane (t := u) (L := L) hs' hl'
  refine ⟨?_, ?_, fun hh hup => ?_⟩
  · have hkeep := State.settleLane_slot_entry (t := u) (L := L) hs' hl' hentry (by decide) (by decide)
    have hsame' : ((u.settleLane L).lane L).entryOf (k + l.ring.length) = l.entryOf k := by
      rw [hfields]
      exact hsame
    rw [Lane.block, hsame']
    exact hkeep
  · rw [State.settleLane_slot hs' hl', State.grant_lane, State.discardIfDue_lane]
    exact hunheld
  · rw [State.settleLane_slot_port hs' hl']
    have hsrc : ((u.openSlot L).lane L).source = l.source := by
      rw [hlane]
      exact hsource
    have hfl : ((u.openSlot L).lane L).fill = l.fill := by
      rw [hlane]
      exact hfill'
    rw [hsrc, hfl] at hgo
    refine hgo ?_ ?_
    · rw [hlane]
      exact hheld.trans hh
    · rw [State.openSlot_port, hport]
      exact hup

end

end Sys2Proof.Machine

/-! PROOF. The release of a drain's final block (R7, R63), and the statement O40. -/

namespace Sys2Proof.Machine
open Sys2Proof

@[simp] theorem State.discardIfDue_events (t : State) (L : LaneId) : (t.discardIfDue L).events = t.events := by
  unfold State.discardIfDue State.when
  split <;> rfl

/-! ### A DRAINING lane whose final block is released -/

section
variable {t : State} {L : LaneId}

/-- It waits for its LOG frames. -/
theorem State.settleLane_finished_waits (hs : (t.lane L).state = .draining) (hl : (t.lane L).landing = [])
    (hf : (t.lane L).final ≠ none) (hfin : (t.lane L).finished = true) (hlog : (t.lane L).logQueue ≠ []) :
    (∃ b r, (t.settleLane L).lane L = { t.lane L with blocks := b, retiring := r }) ∧
    ∀ q, (t.settleLane L).port q = t.port q := by
  have hwait : (t.discardIfDue L).drainIfDue L = t.discardIfDue L := State.drainIfDue_of_not (by
    rw [Bool.eq_false_iff, ne_eq, Lane.drainDone_iff, State.discardIfDue_lane]
    rintro ⟨-, -, h, -⟩
    exact hlog h)
  rw [State.settleLane_finished hs hl hf hfin, hwait]
  refine ⟨?_, fun q => ?_⟩
  · rw [State.grant_lane, State.discardIfDue_lane]
    exact ⟨_, _, rfl⟩
  · rw [State.grant_port, State.discardIfDue_port]

/-- With none to wait for, its drain is complete. -/
theorem State.settleLane_finished_drained (hs : (t.lane L).state = .draining) (hl : (t.lane L).landing = [])
    (hf : (t.lane L).final ≠ none) (hfin : (t.lane L).finished = true) (hlog : (t.lane L).logQueue = [])
    (hr : (t.lane L).release = (t.lane L).fill) :
    (t.settleLane L).lane L = (t.lane L).closed ∧
    ∀ q, ((t.settleLane L).port q).entries[(entryIndex 4 (some L)).val] =
        (t.port q).entries[(entryIndex 4 (some L)).val] ∧
      ((t.settleLane L).port q).entries[(entryIndex 0 (some L)).val] =
        t.foldedEntry q .laneDrained (some L) (t.lane L).release 0 ∧
      ((t.settleLane L).port q).answers = (t.port q).answers ++
        ((t.port q).parked.filter fun x => x.lane == L && x.kind == .drain).map fun x =>
          { tag := x.tag, lane := laneByte x.lane, status := .done, payload := [0x03#8], ofParked := true } := by
  have hdone : (t.discardIfDue L).drainIfDue L = (t.discardIfDue L).completeDrain L := if_pos (by
    rw [Lane.drainDone_iff, State.discardIfDue_lane]
    exact ⟨hs, hl, hlog, hr, .inl hf⟩)
  have hlane : ((t.discardIfDue L).completeDrain L).lane L = (t.lane L).closed := by
    rw [State.completeDrain_lane, State.discardIfDue_lane]
    rfl
  rw [State.settleLane_finished hs hl hf hfin, hdone]
  refine ⟨?_, fun q => ?_⟩
  · rw [State.grant_lane_closed (by rw [hlane]; rfl), hlane]
  · have hgrade := (t.discardIfDue L).completeDrain_gradeEntry L q
    have hdrained := (t.discardIfDue L).completeDrain_entry L q
    have hport := (t.discardIfDue L).completeDrain_port L q
    have hfold := State.foldedEntry_congr (s := t) (t := t.discardIfDue L) (q := q) (c := .laneDrained) (who := some L)
      (by simp only [State.discardIfDue_port]) (t.discardIfDue_events L) (t.lane L).release 0
    have hrelease : ((t.discardIfDue L).lane L).release = (t.lane L).release := by rw [State.discardIfDue_lane]
    simp only [State.grant_port]
    refine ⟨hgrade.trans ?_, hdrained.trans ?_, ?_⟩
    · simp only [State.discardIfDue_port]
    · rw [hrelease, hfold]
    · rw [hport, State.discardIfDue_port]

end

/-! ### The window, the list and the LOG frames, by the records completed -/

/-- The window in the terms of R181. -/
theorem Lane.windowAfter_of {l : Lane} {j : Nat} {done : List Record} (h : l.list.filter (l.completes j) = done) :
    let joined := l.window ++ [{ block := j, count := (l.block j).tally }]
    l.windowAfter j = (if 16 < joined.length then joined.tail else joined).map fun e => { e with
      count := e.count + (done.filter fun r => (r.start - l.start) / 256 == e.block).length } := by
  subst h
  exact l.windowAfter_eq j

/-- The LOG frames in the terms of R61. -/
theorem Lane.cutFrames_of {l : Lane} {j : Nat} {done : List Record} (h : l.list.filter (l.completes j) = done) :
    LogFrame.Cut (l.firstOf j) (l.cutFrames j) ((if l.log then done else []).map Record.start) := by
  subst h
  have hcut := l.cutFrames_cut j
  split at hcut
  · rwa [if_pos ‹_›]
  · rwa [if_neg ‹_›]

/-- The list off the final block, in the terms of R59 to R61. -/
theorem Lane.listAfter_of_not_final {l : Lane} {j : Nat} (h : l.isFinal j = false) :
    let frozen := l.list.map fun r =>
      if r.state = .live ∧ r.start ≤ l.lastOf j ∧ l.firstOf j ≤ r.last then { r with state := .frozen } else r
    l.listAfter j = if l.log then frozen else
      frozen.filter fun r => !(decide (l.firstOf j ≤ r.last) && decide (r.last ≤ l.lastOf j)) := by
  rw [Lane.listAfter, Lane.map_freezeAt, Lane.completes_of_not_final h]

/-! ### The release, before and after the settling -/

/-- What `u` has of `s`, one event later, once lane `L` is handed over to port `p` and before it is settled. -/
structure State.HandsOver (s : State) (p : Port) (L : LaneId) (u : State) : Prop where
  lane : let l := s.lane L
    let k := l.oldest
    ∃ lo ar, u.lane L = { l with
      list := l.listAfter k
      logQueue := l.logQueue ++ l.cutFrames k
      window := l.windowAfter k
      grade := gradeOf l.activeProfile ((l.windowAfter k).map (·.count)).sum
      blocks := l.blocks.set (l.entryOf k) {}
      release := l.release + l.lengthOf k
      counters := l.counters.set 2 (min (l.counters[2] + 1) 4294967295)
      low := lo
      armed := ar }
  port : let l := s.lane L
    ∀ q, ∃ es, u.port q = { s.port q with
      sent := if q = p then (s.port q).sent ++ [s.restoredFrame L l.oldest (s.port q).order] else (s.port q).sent
      pointer := if q = p then L else (s.port q).pointer
      reservation := Reservation.kept (s.port q).reservation fun v => v == ⟨L, l.firstOf l.oldest⟩
      entries := es }
  gradeEntry : ∀ q, (u.port q).entries[(entryIndex 4 (some L)).val] =
    if (u.lane L).grade = (s.lane L).grade then (s.port q).entries[(entryIndex 4 (some L)).val]
    else s.event.foldedEntry q .grade (some L) (u.lane L).release (u.lane L).grade.number
  laneEntry : ∀ q pos, u.foldedEntry q .laneDrained (some L) pos 0 =
    s.event.foldedEntry q .laneDrained (some L) pos 0

theorem State.handedOver_handsOver (s : State) (p : Port) (L : LaneId) : s.HandsOver p L (s.event.handedOver p L) where
  lane := s.event.handedOver_fields p L
  port q := by
    have h := s.event.handedOver_fieldsOfPort p L q
    rwa [State.port_event] at h
  gradeEntry q := by
    have h := s.event.handedOver_gradeEntry p L q
    simp only [State.port_event] at h
    exact h
  laneEntry q pos := by
    refine State.foldedEntry_congr ?_ (s.event.handedOver_events p L) _ _
    refine s.event.handedOver_entry p L q (entryIndex_zero_div L) (Fin.ne_of_val_ne ?_)
    show 7 * 0 + L.val ≠ 7 * 4 + L.val
    omega

namespace State.HandsOver
variable {s u : State} {p : Port} {L : LaneId}

/-- The frame sent, whatever the lane does next. -/
theorem sent (h : s.HandsOver p L u) (q : Port) : ((u.settleLane L).port q).sent =
    if q = p then (s.port q).sent ++ [s.restoredFrame L (s.lane L).oldest (s.port q).order] else (s.port q).sent := by
  obtain ⟨es, hq⟩ := h.port q
  rw [(u.settleLane_sent L q).1, hq]

theorem pointer (h : s.HandsOver p L u) : ((u.settleLane L).port p).pointer = L := by
  obtain ⟨es, hp⟩ := h.port p
  rw [(u.settleLane_sent L p).2, hp]
  exact if_pos rfl

/-- The final block's release ends at the fill point. -/
theorem release_final (h : s.HandsOver p L u) (hf : (s.lane L).final = some ((s.lane L).firstOf (s.lane L).oldest))
    (hr : (s.lane L).release = (s.lane L).firstOf (s.lane L).oldest)
    (hlt : (s.lane L).firstOf (s.lane L).oldest < (s.lane L).fill) : (u.lane L).release = (s.lane L).fill := by
  obtain ⟨lo, ar, hlane⟩ := h.lane
  rw [hlane]
  simp only [Lane.lengthOf, if_pos hf]
  omega

end State.HandsOver

/-- Settles O40: the lane handed over (`State.HandsOver`), and what its settling leaves of it in each state. -/
theorem releaseHandsOverTheOldestBlock : Obligations.ReleaseHandsOverTheOldestBlock := by
  intro s p L hchosen l k before completed frozen cutFrom joined windowAfter
  have hlogQueue : l.logQueue = [] := State.chosen_restored hchosen
  have hclear := release_clears_slot (s := s.event) (p := p) (L := L)
  have hrefill := release_refills_slot (s := s.event) (p := p) (L := L)
  have hover := s.handedOver_handsOver p L
  have hexec := exec_release hchosen
  generalize s.event.handedOver p L = u at *
  obtain ⟨lo, ar, hlane⟩ := hover.lane
  have hstate : (u.lane L).state = l.state := by rw [hlane]
  have hlanding : (u.lane L).landing = l.landing := by rw [hlane]
  have hfinal : (u.lane L).final = l.final := by rw [hlane]
  have hrel : (u.lane L).release = l.release + l.lengthOf k := by rw [hlane]
  refine ⟨u.settleLane L, hexec, (hover.sent p).trans (if_pos rfl), hover.pointer,
    fun q hq => (hover.sent q).trans (if_neg hq), fun hs => ?_, fun hs hl hf hfirst hlt hfin => ?_⟩
  · rw [← hstate] at hs
    obtain ⟨hrelease, hreleased⟩ := State.settleLane_release hs
    refine ⟨hrelease.trans hrel, hreleased.trans ?_, fun hl hf => ?_⟩
    · simp only [hlane]
      exact Vector.getElem_set_self _
    have hnot : l.isFinal k = false := by simp [Lane.isFinal, hf]
    have hdone : l.list.filter (l.completes k) = completed := by rw [Lane.completes_of_not_final hnot]
    obtain ⟨hrendered, hmark⟩ := hclear (hstate.symm.trans hs) hl
    have hrefill := hrefill (hstate.symm.trans hs) hl hf
    rw [← hlanding] at hl
    have hports := State.settleLane_slot_port hs hl
    obtain ⟨b, hd, a, r, hfields⟩ := State.settleLane_slot_lane hs hl
    have hgrade : ((u.settleLane L).lane L).grade = (u.lane L).grade := by rw [hfields]
    rw [hlane] at hfields
    refine ⟨hrendered, hmark, ?_, ⟨l.cutFrames k, by rw [hfields], Lane.cutFrames_of hdone⟩, ?_, ?_, fun q => ?_,
      fun q => ?_, hrefill⟩
    · rw [hfields]
      exact Lane.listAfter_of_not_final hnot
    · rw [hfields]
      exact Lane.windowAfter_of hdone
    · rw [hfields]
      rfl
    · obtain ⟨es, h⟩ := hover.port q
      rw [hports, h]
    · have hentry := hover.gradeEntry q
      rw [hrel] at hentry
      simp only [hgrade, hports]
      exact hentry
  · have hend : (u.lane L).release = l.fill := hover.release_final hf hfirst hlt
    have hfin' : (u.lane L).finished = true := by rw [hlane]; exact hfin
    have hf' : (u.lane L).final ≠ none := by simp [hfinal, hf]
    intro last
    have hdone : l.list.filter (l.completes k) = last := by
      rw [Lane.completes_of_final (show l.isFinal k = true by simp [Lane.isFinal, hf])]
    have hcut := Lane.cutFrames_of hdone
    have hqueue : (u.lane L).logQueue = l.cutFrames k := by rw [hlane, hlogQueue, List.nil_append]
    have hentry := hover.gradeEntry
    rw [hend] at hentry
    rw [← hstate] at hs
    rw [← hlanding] at hl
    by_cases hwait : l.log = true ∧ last ≠ []
    · obtain ⟨hlog, hlast⟩ := hwait
      have hframes : (u.lane L).logQueue ≠ [] := by
        rw [hqueue, ne_eq, hcut.nil_iff, if_pos hlog]
        simpa using hlast
      obtain ⟨⟨b, r, hfields⟩, hports⟩ := State.settleLane_finished_waits hs hl hf' hfin' hframes
      have hgrade : ((u.settleLane L).lane L).grade = (u.lane L).grade := by rw [hfields]
      refine ⟨fun q => ?_, fun _ _ => ⟨?_, ?_, ?_, ?_, ?_⟩, fun h => ?_⟩
      · simp only [hgrade, hports]
        exact hentry q
      · rw [hfields]
        exact hs
      · rw [hfields]
        exact hend
      · rw [hfields, hlane]
        exact (if_pos hlog).trans (l.map_freezeAt k)
      · rw [hfields]
        change cutFrom (u.lane L).logQueue last
        rw [hqueue]
        rwa [if_pos hlog] at hcut
      · rw [hfields, hlane]
        exact Lane.windowAfter_of hdone
      · exact h.elim (fun h => by simp [hlog] at h) fun h => absurd h hlast
    · have hframes : (u.lane L).logQueue = [] := by
        rw [hqueue, hcut.nil_iff]
        by_cases hlog : l.log = true
        · rw [if_pos hlog, not_not.1 fun h => hwait ⟨hlog, h⟩]
          rfl
        · rw [if_neg hlog]
          rfl
      obtain ⟨hclosed, hports⟩ := State.settleLane_finished_drained hs hl hf' hfin' hframes (by rw [hend, hlane])
      have hgrade : ((u.settleLane L).lane L).grade = (u.lane L).grade := by rw [hclosed]; rfl
      refine ⟨fun q => ?_, fun hlog hlast => absurd ⟨hlog, hlast⟩ hwait, fun _ => ⟨?_, fun q => ?_⟩⟩
      · obtain ⟨hsame, -⟩ := hports q
        rw [hgrade]
        exact hsame.trans (hentry q)
      · have hwindow : (u.lane L).window = windowAfter last := by
          rw [hlane]
          exact Lane.windowAfter_of hdone
        rw [hgrade, hclosed, ← hwindow, Lane.closed]
        rw [hlane]
      · obtain ⟨-, hdrained, hanswers⟩ := hports q
        obtain ⟨es, h⟩ := hover.port q
        refine ⟨hdrained.trans ?_, hanswers.trans ?_⟩
        · rw [hend]
          exact hover.laneEntry q _
        · rw [h]

end Sys2Proof.Machine

/-! PROOF. The taking of a position, phase by phase (R26): the anchors due, the classification of the position, the
close of a span at its end, and the block's end. -/

namespace Sys2Proof.Machine
open Sys2Proof

/-! ### The state with the anchors due taken (R20; R26, step 1) -/

/-- The latch at the first position of a block (R20). -/
def State.latched (s : State) (L : LaneId) : State :=
  if ((s.lane L).analysis - (s.lane L).start) % 256 = 0 then s.latchBlock L ((s.lane L).ord (s.lane L).analysis)
  else s

/-- The part one event on, its block latched and the anchors due at the lane's next position taken. -/
def State.anchored (s : State) (L : LaneId) : State := (s.event.latched L).dueAnchors L (s.lane L).analysis

/-- The position classified and tested, and a span at its end closed (R26, steps 2 to 5). -/
def State.tested (s : State) (L : LaneId) : State :=
  ((s.anchored L).classify L (s.lane L).analysis).closeAt L (s.lane L).analysis

/-- The generation that the block of the lane's next position carries at that position's test. -/
def State.carriedNext (s : State) (L : LaneId) : Nat :=
  if ((s.lane L).analysis - (s.lane L).start) % 256 = 0 then (s.lane L).active.elim 0 WorkingCopy.generation
  else (s.store.checkpoint ((s.lane L).slotOf (((s.lane L).analysis - (s.lane L).start) / 256))).latch.generation

theorem State.analyseNext_eq (s : State) (L : LaneId) : s.event.analyseNext L =
    (s.tested L).modLane L fun l => { l.blockEnd (s.lane L).analysis with analysis := (s.lane L).analysis + 1 } := rfl

@[simp] theorem State.latched_lane (s : State) (L M : LaneId) : (s.latched L).lane M = s.lane M := by
  unfold State.latched
  split <;> rfl

@[simp] theorem State.latched_port (s : State) (L : LaneId) (q : Port) : (s.latched L).port q = s.port q := by
  unfold State.latched
  split
  · rw [State.latchBlock, State.port_setStore]
  · rfl

@[simp] theorem State.latched_events (s : State) (L : LaneId) : (s.latched L).events = s.events := by
  unfold State.latched
  split <;> rfl

@[simp] theorem State.latched_raw (s : State) (L : LaneId) : (s.latched L).store.raw = s.store.raw := by
  unfold State.latched
  split <;> rfl

@[simp] theorem State.latched_missing (s : State) (L : LaneId) : (s.latched L).store.missing = s.store.missing := by
  unfold State.latched
  split <;> rfl

theorem State.latched_generation {s : State} (hwf : s.storeWf) (L : LaneId) : ((s.event.latched L).store.checkpoint
    ((s.lane L).slotOf ((s.lane L).ord (s.lane L).analysis))).latch.generation = s.carriedNext L := by
  unfold State.latched State.carriedNext
  by_cases h : ((s.lane L).analysis - (s.lane L).start) % 256 = 0
  · rw [if_pos h, if_pos (show ((s.event.lane L).analysis - (s.event.lane L).start) % 256 = 0 from h),
      State.latchBlock_checkpoint (s := s.event) hwf, State.lane_event, if_pos rfl]
    exact Option.map_getD_eq_elim _ _ _
  · rw [if_neg h, if_neg (show ¬((s.event.lane L).analysis - (s.event.lane L).start) % 256 = 0 from h)]
    rfl

theorem State.anchored_works (s : State) (L : LaneId) : (s.event.latched L).Works L (s.anchored L) :=
  (State.Works.refl L _).dueAnchors _

/-! ### What the position's test reads -/

section
variable {s : State} {L : LaneId}

theorem State.anchored_worked : (s.lane L).Worked ((s.anchored L).lane L) := by
  have h := (s.anchored_works L).lane
  rwa [State.latched_lane, State.lane_event] at h

/-- Work on a lane leaves where its positions lie, what it may take from the pool, and its profiles. -/
theorem Lane.Worked.settings {l m : Lane} (h : l.Worked m) : (m.start = l.start ∧ m.fill = l.fill ∧ m.ring = l.ring) ∧
    (m.isOpen = l.isOpen ∧ m.reserve = l.reserve) ∧ (∀ pos, m.cell pos = l.cell pos) ∧
    (∀ pos, m.slotOf (m.ord pos) = l.slotOf (l.ord pos)) ∧ ∀ g, m.profileOf g = l.profileOf g := by
  rw [h.1]
  exact ⟨⟨rfl, rfl, rfl⟩, ⟨rfl, rfl⟩, fun _ => rfl, fun _ => rfl, fun _ => rfl⟩

theorem State.anchored_geometry : ((s.anchored L).lane L).start = (s.lane L).start ∧
    ((s.anchored L).lane L).fill = (s.lane L).fill ∧ ((s.anchored L).lane L).ring = (s.lane L).ring :=
  State.anchored_worked.settings.1

theorem State.anchored_cell (pos : Nat) : ((s.anchored L).lane L).cell pos = (s.lane L).cell pos := by
  obtain ⟨-, -, hcell, -⟩ := State.anchored_worked (s := s) (L := L) |>.settings
  exact hcell pos

theorem State.anchored_missing : (s.anchored L).store.missing = s.store.missing := by
  rw [(s.anchored_works L).store]
  exact State.latched_missing _ _

theorem State.anchored_events : (s.anchored L).events = s.events + 1 := by
  obtain ⟨-, -, -, -, he, -⟩ := (s.anchored_works L).rest
  rw [he, State.latched_events, State.event_events]

theorem State.anchored_missingAt (pos : Nat) : (s.anchored L).missingAt L pos = s.missingAt L pos := by
  unfold State.missingAt
  rw [State.anchored_cell, State.anchored_missing]

theorem State.anchored_rawAt (hraw : (s.anchored L).store.raw = s.store.raw) (pos : Nat) :
    (s.anchored L).rawAt L pos = s.rawAt L pos := by
  unfold State.rawAt
  rw [State.anchored_cell, hraw]

theorem State.anchored_anchorBefore (hraw : (s.anchored L).store.raw = s.store.raw) (st : Nat) :
    (s.anchored L).anchorBefore L st = s.event.anchorBefore L st :=
  State.anchorBefore_congr State.anchored_events State.anchored_geometry fun pos _ _ _ _ => by
    rw [hraw, State.anchored_missing]
    exact ⟨rfl, rfl⟩

theorem State.anchored_canTake (hlen : ((s.anchored L).lane L).list.length = (s.lane L).list.length) :
    (s.anchored L).canTake L = s.canTake L := by
  refine State.canTake_congr (fun M => ?_) L
  by_cases hM : M = L
  · subst hM
    obtain ⟨-, ⟨hopen, hreserve⟩, -⟩ := State.anchored_worked (s := s) (L := M) |>.settings
    exact ⟨hopen, hreserve, hlen⟩
  · obtain ⟨lo, ar, h⟩ := ((s.anchored_works L).other M hM).exists_flags
    rw [h, State.latched_lane, State.lane_event]
    exact ⟨rfl, rfl, rfl⟩

/-- The profile of the block's test (R28). -/
theorem State.anchored_profile (hwf : s.storeWf) : ((s.anchored L).lane L).profileOf
      ((s.anchored L).store.checkpoint (((s.anchored L).lane L).slotOf
        (((s.anchored L).lane L).ord (s.lane L).analysis))).latch.generation =
    (s.lane L).profileOf (s.carriedNext L) := by
  obtain ⟨-, -, -, hslot, hprofile⟩ := State.anchored_worked (s := s) (L := L) |>.settings
  rw [hprofile, hslot, (s.anchored_works L).checkpoint, State.latched_generation hwf]

end

/-! ### The anchors due, case by case -/

theorem State.takeAnchors_lane (s : State) (L : LaneId) (n : Nat) : (s.takeAnchors L n).lane L =
    { s.lane L with list := (s.lane L).list.map (Record.takeAnchor n (s.anchorAt L n)) } := by
  obtain ⟨-, h, -⟩ := State.foldl_recordTouched L
    ((s.lane L).list.filter fun r => r.takeAnchor n (s.anchorAt L n) != r)
    (s.setList L ((s.lane L).list.map (Record.takeAnchor n (s.anchorAt L n))))
  exact h.trans (State.lane_modLane_same _ _ _)

theorem State.takeAnchors_store (s : State) (L : LaneId) (n : Nat) : (s.takeAnchors L n).store = s.store := by
  obtain ⟨-, -, h⟩ := State.foldl_recordTouched L
    ((s.lane L).list.filter fun r => r.takeAnchor n (s.anchorAt L n) != r)
    (s.setList L ((s.lane L).list.map (Record.takeAnchor n (s.anchorAt L n))))
  exact h

/-- Records that hold the anchors due take none. -/
theorem State.takeAnchors_none {s : State} {L : LaneId} {n : Nat}
    (h : ∀ r ∈ (s.lane L).list, ∀ x, r.takeAnchor n x = r) : s.takeAnchors L n = s := by
  have hmap : (s.lane L).list.map (Record.takeAnchor n (s.anchorAt L n)) = (s.lane L).list :=
    (List.map_congr_left fun r hr => h r hr _).trans (List.map_id _)
  have hnone : ((s.lane L).list.filter fun r => r.takeAnchor n (s.anchorAt L n) != r) = [] :=
    List.filter_eq_nil_iff.2 fun r hr => by simp [h r hr]
  unfold State.takeAnchors
  dsimp only
  rw [hmap, hnone]
  exact State.modLane_id (f := fun l => { l with list := (s.lane L).list }) rfl

/-- No WAITING span of the lane ends just before `n`. -/
def Lane.noSpanDue (l : Lane) (n : Nat) : Prop := ∀ sp, l.span = some sp → sp.phase = .waiting → sp.last + 1 ≠ n

theorem Lane.noSpanDue_of_none {l : Lane} (h : l.span = none) (n : Nat) : l.noSpanDue n := by
  simp [Lane.noSpanDue, h]

theorem Lane.noSpanDue_of_growing {l : Lane} {sp : Span} (h : l.span = some sp) (hg : sp.phase = .growing) (n : Nat) :
    l.noSpanDue n := by
  rintro sp' h' hw
  rw [h, Option.some.injEq] at h'
  rw [← h', hg] at hw
  cases hw

theorem State.dueAnchors_noSpanDue {s : State} {L : LaneId} {n : Nat} (h : (s.lane L).noSpanDue n) :
    s.dueAnchors L n = s.takeAnchors L n := by
  unfold State.dueAnchors
  cases hsp : (s.lane L).span with
  | none => rfl
  | some sp =>
    dsimp only
    rw [if_neg fun hc => h sp hsp hc.1 hc.2]

theorem State.dueAnchors_ends {s : State} {L : LaneId} {n : Nat} {sp : Span} (h : (s.lane L).span = some sp)
    (hp : sp.phase = .waiting) (hn : sp.last + 1 = n) :
    s.dueAnchors L n = (s.endSpan L sp (s.anchorAt L n)).takeAnchors L n := by
  unfold State.dueAnchors
  rw [h]
  dsimp only
  rw [if_pos ⟨hp, hn⟩]

/-- The lane once a WAITING span's after-anchor is taken (R35, R43). -/
theorem State.endSpan_lane_eq (s : State) (L : LaneId) (sp : Span) (x : Int) : (s.endSpan L sp x).lane L =
    { s.lane L with
      span := none
      list := if sp.form = .listed then
          updateRecord sp.start (fun r => { r with state := .live, after := some x }) (s.lane L).list
        else (s.lane L).list } := by
  unfold State.endSpan
  cases sp.form
  · simp [State.setSpan, State.setList]
  · simp [State.setSpan, State.writeUnlisted]

section
variable {s : State} {L : LaneId}

theorem State.anchored_lane (h : (s.lane L).noSpanDue (s.lane L).analysis) : ∃ x, (s.anchored L).lane L =
    { s.lane L with list := (s.lane L).list.map (Record.takeAnchor (s.lane L).analysis x) } := by
  refine ⟨(s.event.latched L).anchorAt L (s.lane L).analysis, ?_⟩
  rw [State.anchored, State.dueAnchors_noSpanDue (by rw [State.latched_lane]; exact h), State.takeAnchors_lane,
    State.latched_lane, State.lane_event]

theorem State.anchored_raw (h : (s.lane L).noSpanDue (s.lane L).analysis) :
    (s.anchored L).store.raw = s.store.raw := by
  rw [State.anchored, State.dueAnchors_noSpanDue (by rw [State.latched_lane]; exact h), State.takeAnchors_store,
    State.latched_raw, State.event_store]

/-- Where no span is due and every record is OPEN, no anchor is taken. -/
theorem State.anchored_opened (h : (s.lane L).noSpanDue (s.lane L).analysis)
    (ho : ∀ r ∈ (s.lane L).list, r.state = .opened) : s.anchored L = s.event.latched L := by
  rw [State.anchored, State.dueAnchors_noSpanDue (by rw [State.latched_lane]; exact h)]
  refine State.takeAnchors_none fun r hr x => ?_
  rw [State.latched_lane] at hr
  exact Record.takeAnchor_opened (ho r hr) _ _

end

/-- An anchor at a placed position that the ring still holds. -/
theorem State.anchorAt_held {s : State} {L : LaneId} {n : Nat} (hst : (s.lane L).start ≤ n) (hlt : n < (s.lane L).fill)
    (hring : (s.lane L).fill ≤ n + 256 * (s.lane L).ring.length) :
    s.anchorAt L n = if s.missingAt L n = true then 0 else s.rawAt L n := by
  unfold State.anchorAt
  dsimp only
  rw [if_neg (by omega), if_neg (show ¬n + Config.blockLen * (s.lane L).ringSize < (s.lane L).fill from
    Nat.not_lt.mpr hring)]

/-! ### Classification and test (R26, steps 2 to 4) -/

/-- A position that suspends detection (R27). -/
theorem State.classify_suspends {s : State} {L : LaneId} {n : Nat} (h : s.missingAt L n = true ∨
      ∃ r ∈ (s.lane L).list, r.mergeable = true ∧ r.covers n = true) :
    s.classify L n = s.setLane L { s.lane L with suspend := 0 } := by
  unfold State.classify
  dsimp only
  refine if_pos ?_
  simpa using h

/-- A valid position that no LIVE APPLIED record covers. -/
theorem State.classify_valid {s : State} {L : LaneId} {n : Nat} (h : s.missingAt L n = false)
    (hr : ∀ r ∈ (s.lane L).list, r.mergeable = true → r.covers n = false) :
    s.classify L n = if (s.lane L).suspend < 2 then s.setLane L ((s.lane L).enterHistory (s.rawAt L n))
      else s.testPosition L n (s.rawAt L n) := by
  unfold State.classify
  dsimp only
  refine if_neg ?_
  simpa [h] using hr

/-- The sample `x` opens and grows no span under profile `p`: it is not tested, or not flagged. -/
def Lane.unflagged (l : Lane) (p : Profile) (x : Int) : Prop :=
  l.suspend < 2 ∨ (l.suspend = 2 ∧ 64 * (x - 2 * l.x1 + l.x2).natAbs ≤ max l.envelope.toNat p.emin * p.t)

/-- The lane once an unflagged sample is taken (R27, R29). -/
def Lane.heard (l : Lane) (x : Int) : Lane :=
  if l.suspend < 2 then l.enterHistory x else { l with envelope := envelopeAfter l.envelope (l.measure x) }.enterHistory x

theorem Lane.heard_fields (l : Lane) (x : Int) : ∃ x1 x2 k e, l.heard x = { l with
    x1 := x1, x2 := x2, suspend := k, envelope := e } := by
  unfold Lane.heard
  split
  · exact ⟨_, _, _, _, rfl⟩
  · exact ⟨_, _, _, _, rfl⟩

/-- The profile under which the position at `n` is tested. -/
def State.profileAt (s : State) (L : LaneId) (n : Nat) : Profile :=
  (s.lane L).profileOf (s.store.checkpoint ((s.lane L).slotOf ((s.lane L).ord n))).latch.generation

theorem State.classify_unflagged {s : State} {L : LaneId} {n : Nat} (h : s.missingAt L n = false)
    (hr : ∀ r ∈ (s.lane L).list, r.mergeable = true → r.covers n = false)
    (hu : (s.lane L).unflagged (s.profileAt L n) (s.rawAt L n)) :
    s.classify L n = s.setLane L ((s.lane L).heard (s.rawAt L n)) := by
  rw [State.classify_valid h hr, Lane.heard]
  rcases hu with hlow | ⟨hfull, hle⟩
  · rw [if_pos hlow, if_pos hlow]
  · have hflag : (s.lane L).flags (s.profileAt L n) (s.rawAt L n) = false :=
      decide_eq_false (Nat.not_lt.mpr hle)
    have hnot : ¬(s.lane L).suspend < 2 := by omega
    unfold State.profileAt at hflag
    rw [if_neg hnot, if_neg hnot, State.testPosition]
    dsimp only
    rw [hflag]
    rfl

/-- A flagged sample: it opens a span, or grows the GROWING one, and enters the history (R28, R30, R33). -/
theorem State.classify_flagged {s : State} {L : LaneId} {n : Nat} (h : s.missingAt L n = false)
    (hr : ∀ r ∈ (s.lane L).list, r.mergeable = true → r.covers n = false) (hfull : (s.lane L).suspend = 2)
    (hf : (s.lane L).flags (s.profileAt L n) (s.rawAt L n) = true) :
    let e := (s.lane L).thresholdBase (s.profileAt L n)
    let m := (s.lane L).measure (s.rawAt L n)
    ((s.lane L).span = none →
      s.classify L n = (s.openSpan L n m e).modLane L (Lane.enterHistory · (s.rawAt L n))) ∧
    ∀ sp, (s.lane L).span = some sp → sp.phase = .growing →
      s.classify L n = (s.growSpan L sp n m e).modLane L (Lane.enterHistory · (s.rawAt L n)) := by
  have hnot : ¬(s.lane L).suspend < 2 := by omega
  unfold State.profileAt at hf ⊢
  rw [State.classify_valid h hr, if_neg hnot, State.testPosition]
  dsimp only
  rw [if_pos hf]
  constructor
  · intro hsp
    rw [hsp]
  · intro sp hsp hg
    rw [hsp]
    dsimp only
    rw [if_pos hg]

/-! ### The close of a span at its end (R26, step 5; R34) -/

theorem State.closeAt_open {s : State} {L : LaneId} {n : Nat}
    (h : ∀ sp, (s.lane L).span = some sp → sp.phase = .growing → sp.last ≠ n) : s.closeAt L n = s := by
  unfold State.closeAt
  cases hsp : (s.lane L).span with
  | none => rfl
  | some sp =>
    dsimp only
    rw [if_neg fun hc => h sp hsp hc.1 hc.2]

theorem State.closeAt_closes {s : State} {L : LaneId} {n : Nat} {sp : Span} (h : (s.lane L).span = some sp)
    (hg : sp.phase = .growing) (hn : sp.last = n) : s.closeAt L n = s.closeSpan L sp := by
  unfold State.closeAt
  rw [h]
  dsimp only
  rw [if_pos ⟨hg, hn⟩]

/-- A span's own record counted by its kind (R34). -/
def Lane.countedAs (l : Lane) (own : Bool) (k : Kind) : Lane :=
  if own = true ∧ k = .click then l.count .click else if own = true ∧ k = .burst then l.count .burst else l

theorem Lane.countedAs_eq (l : Lane) (own : Bool) (k : Kind) : l.countedAs own k = { l with
    counters := if own = true ∧ k = .click then l.counters.set 3 (min (l.counters[3] + 1) 4294967295)
      else if own = true ∧ k = .burst then l.counters.set 4 (min (l.counters[4] + 1) 4294967295)
      else l.counters } := by
  unfold Lane.countedAs
  split
  · rfl
  · split <;> rfl

/-- The close of a LISTED span whose record closes as `r`. -/
theorem State.closeSpan_of_record {s : State} {L : LaneId} {sp : Span} {r : Record} (hf : sp.form = .listed)
    (hr : findRecord sp.start (updateRecord sp.start (Record.burstBeyond sp.lmax) (s.lane L).list) = some r) :
    s.closeSpan L sp = (s.waitingSpan L sp).modLane L (Lane.countedAs · sp.own r.kind) := by
  have hclose : s.closeSpan L sp = if sp.own then
        match (findRecord sp.start (updateRecord sp.start (Record.burstBeyond sp.lmax) (s.lane L).list)).map
            Record.kind with
        | some .click => (s.waitingSpan L sp).count L .click
        | some .burst => (s.waitingSpan L sp).count L .burst
        | _ => s.waitingSpan L sp
      else s.waitingSpan L sp := by
    cases sp
    subst hf
    rfl
  have hstand : (s.waitingSpan L sp).modLane L (fun l => l) = s.waitingSpan L sp := State.modLane_id rfl
  rw [hclose, hr, Option.map_some]
  unfold Lane.countedAs
  cases sp.own with
  | false => simpa using hstand.symm
  | true => cases r.kind <;> simp [State.count, hstand]

theorem State.waitingSpan_lane (s : State) (L : LaneId) (sp : Span) : (s.waitingSpan L sp).lane L = { s.lane L with
    span := some { sp with phase := .waiting }
    list := updateRecord sp.start (Record.burstBeyond sp.lmax) (s.lane L).list } := by
  simp [State.waitingSpan, State.setSpan, State.setList]

theorem State.waitingSpan_port (s : State) (L : LaneId) (sp : Span) (q : Port) :
    (s.waitingSpan L sp).port q = { s.port q with
      reservation := Reservation.kept (s.port q).reservation fun v => v.lane == L &&
        decide (sp.start ≤ (s.lane L).lastOf ((s.lane L).ord v.first)) && decide (v.first ≤ sp.last) } := by
  rw [State.waitingSpan, State.recordTouched_port, State.setList, State.lane_modLane_same, State.setSpan,
    State.lane_modLane_same, State.port_modLane, State.port_modLane]
  rfl

/-! ### The position taken (R20; R26, step 6) -/

/-- A position of an ACTIVE lane taken: the lane as its test and the close of a span leave it, past that position, and
a block that the position ends ANALYSED. -/
theorem exec_analysePosition_active {s : State} {L : LaneId} {l m : Lane} (hs : (s.lane L).state = .active)
    (hlt : (s.lane L).analysis < (s.lane L).fill) (hm : (s.tested L).lane L = m) (hr : l.SameRing m) :
    ∃ t : State, exec (.analysePosition L) s = .next t.grant ∧ t.lane L = { m with
        analysis := (s.lane L).analysis + 1, blocks := (l.blockEnd (s.lane L).analysis).blocks } ∧
      (∀ q, t.port q = (s.tested L).port q) ∧ t.store = (s.tested L).store := by
  have hcan : (s.lane L).canAnalyse = true := by
    simp only [Lane.canAnalyse, Bool.and_eq_true, decide_eq_true_eq]
    exact ⟨(Lane.isOpen_iff _).2 (by rw [hs]; decide), hlt⟩
  have hlane : (s.event.analyseNext L).lane L = { m with
      analysis := (s.lane L).analysis + 1, blocks := (l.blockEnd (s.lane L).analysis).blocks } := by
    rw [State.analyseNext_eq, State.lane_modLane_same, hm, hr.blockEnd]
  have hstate : ((s.event.analyseNext L).lane L).state = .active := by
    obtain ⟨u, hu, he⟩ := s.event.analyseNext_works L
    rw [he, State.lane_modLane_same]
    have hw := (hu.lane.trans ((u.lane L).blockEnd_worked (s.lane L).analysis)).1
    have hlatch : ((s.event.latched L).lane L).state = .active := by rw [State.latched_lane]; exact hs
    exact (congrArg Lane.state hw).trans hlatch
  have hdue : ((s.event.analyseNext L).lane L).finishDue = false := by simp [Lane.finishDue, hstate]
  refine ⟨s.event.analyseNext L, ?_, hlane, fun q => ?_, ?_⟩
  · rw [exec_analysePosition hcan, hdue]
    rfl
  · rw [State.analyseNext_eq, State.port_modLane]
  · rw [State.analyseNext_eq, State.modLane_store]

end Sys2Proof.Machine

/-! PROOF. Positions that open no span (R26 to R29, R34, R35, R43, R52): detection suspended, the history and the
envelope moved, a span closed at its end and ended after it. The statement O50. -/

namespace Sys2Proof.Machine
open Sys2Proof

/-! ### A position tested and not flagged -/

section
variable {s : State} {L : LaneId} {m : Lane}

theorem State.tested_unflagged (hwf : s.storeWf) (hm : (s.anchored L).lane L = m)
    (hraw : (s.anchored L).store.raw = s.store.raw) (hvalid : s.missingAt L (s.lane L).analysis = false)
    (hr : ∀ r ∈ m.list, r.mergeable = true → r.covers (s.lane L).analysis = false)
    (hu : m.unflagged ((s.lane L).profileOf (s.carriedNext L)) (s.rawAt L (s.lane L).analysis)) :
    s.tested L = ((s.anchored L).setLane L (m.heard (s.rawAt L (s.lane L).analysis))).closeAt L
      (s.lane L).analysis := by
  subst hm
  rw [State.tested, State.classify_unflagged (by rw [State.anchored_missingAt]; exact hvalid) hr (by
    rw [State.anchored_rawAt hraw, State.profileAt, State.anchored_profile hwf]
    exact hu), State.anchored_rawAt hraw]

/-- With no span, only the history can change: the position suspends detection, or its sample is not flagged. -/
theorem State.tested_no_span (hm : (s.anchored L).lane L = m) (hsp : m.span = none)
    (h : s.missingAt L (s.lane L).analysis = true ∨ (s.missingAt L (s.lane L).analysis = false ∧
      (∀ r ∈ m.list, r.mergeable = true → r.covers (s.lane L).analysis = false) ∧
      m.unflagged ((s.anchored L).profileAt L (s.lane L).analysis) ((s.anchored L).rawAt L (s.lane L).analysis))) :
    (∃ x1 x2 k e, (s.tested L).lane L = { m with x1 := x1, x2 := x2, suspend := k, envelope := e }) ∧
    (s.tested L).store = (s.anchored L).store := by
  subst hm
  rcases h with h | ⟨hvalid, hr, hu⟩
  · rw [State.tested, State.classify_suspends (.inl (by rw [State.anchored_missingAt]; exact h)),
      State.closeAt_open (by simp [hsp]), State.lane_setLane_same]
    exact ⟨⟨_, _, _, _, rfl⟩, State.setLane_store _ _ _⟩
  · obtain ⟨x1, x2, k, e, hfields⟩ :=
      ((s.anchored L).lane L).heard_fields ((s.anchored L).rawAt L (s.lane L).analysis)
    rw [State.tested, State.classify_unflagged (by rw [State.anchored_missingAt]; exact hvalid) hr hu,
      State.closeAt_open (by rw [State.lane_setLane_same, hfields]; simp [hsp]), State.lane_setLane_same]
    exact ⟨⟨_, _, _, _, hfields⟩, State.setLane_store _ _ _⟩

end

/-! ### The end of a WAITING span (R35, R43) -/

section
variable {s : State} {L : LaneId} {sp : Span}

theorem State.anchored_ended (hsp : (s.lane L).span = some sp) (hp : sp.phase = .waiting)
    (hn : sp.last + 1 = (s.lane L).analysis) : s.anchored L = ((s.event.latched L).endSpan L sp
      ((s.event.latched L).anchorAt L (s.lane L).analysis)).takeAnchors L (s.lane L).analysis :=
  State.dueAnchors_ends (by rw [State.latched_lane]; exact hsp) hp hn

theorem State.anchored_ended_lane (hsp : (s.lane L).span = some sp) (hp : sp.phase = .waiting)
    (hn : sp.last + 1 = (s.lane L).analysis) : ∃ y, (s.anchored L).lane L = { s.lane L with
      span := none
      list := (if sp.form = .listed then updateRecord sp.start (fun r => { r with
            state := .live, after := some ((s.event.latched L).anchorAt L (s.lane L).analysis) }) (s.lane L).list
          else (s.lane L).list).map (Record.takeAnchor (s.lane L).analysis y) } := by
  rw [State.anchored_ended hsp hp hn, State.takeAnchors_lane, State.endSpan_lane_eq, State.latched_lane,
    State.lane_event]
  exact ⟨_, rfl⟩

theorem State.anchored_ended_store (hsp : (s.lane L).span = some sp) (hp : sp.phase = .waiting)
    (hn : sp.last + 1 = (s.lane L).analysis) : (s.anchored L).store =
      if sp.form = .listed then (s.event.latched L).store
      else ((s.event.latched L).writeUnlisted L sp.start (sp.last + 1 - sp.start)
        ((s.event.latched L).anchorAt L (s.lane L).analysis)).store := by
  rw [State.anchored_ended hsp hp hn, State.takeAnchors_store, State.endSpan_store]

/-- The value an anchor takes at the position that is taken (R52). -/
theorem State.latched_anchorAt (hst : (s.lane L).start ≤ (s.lane L).analysis)
    (hlt : (s.lane L).analysis < (s.lane L).fill)
    (hring : (s.lane L).fill ≤ (s.lane L).analysis + 256 * (s.lane L).ring.length) :
    (s.event.latched L).anchorAt L (s.lane L).analysis =
      if s.missingAt L (s.lane L).analysis = true then 0 else s.rawAt L (s.lane L).analysis := by
  have hmiss : (s.event.latched L).missingAt L (s.lane L).analysis = s.missingAt L (s.lane L).analysis := by
    rw [State.missingAt, State.latched_lane, State.latched_missing]
    rfl
  have hraw : (s.event.latched L).rawAt L (s.lane L).analysis = s.rawAt L (s.lane L).analysis := by
    rw [State.rawAt, State.latched_lane, State.latched_raw]
    rfl
  rw [← hmiss, ← hraw]
  apply State.anchorAt_held <;> rw [State.latched_lane] <;> assumption

end

/-- What the raw store holds after an unlisted span's write depends on the raw store alone (R43). -/
theorem SampleStore.foldl_setRaw_raw {α : Type} (k : α → Nat) (v : α → Int) (is : List α) (m : SampleStore) :
    (is.foldl (fun m i => m.setRaw (k i) (v i)) m).raw = is.foldl (fun c i => Cells.write 0 (k i) (v i) c) m.raw := by
  induction is generalizing m with
  | nil => rfl
  | cons i is ih => exact ih _

theorem State.latched_writeUnlisted (s : State) (L : LaneId) (start len : Nat) (b : Int) :
    ((s.latched L).writeUnlisted L start len b).store.raw = (s.writeUnlisted L start len b).store.raw := by
  have ha : (s.latched L).anchorBefore L start = s.anchorBefore L start :=
    State.anchorBefore_congr (State.latched_events _ _) (by rw [State.latched_lane]; exact ⟨rfl, rfl, rfl⟩)
      fun pos _ _ _ _ => by rw [State.latched_raw, State.latched_missing]; exact ⟨rfl, rfl⟩
  simp only [State.writeUnlisted, State.setStore_store, SampleStore.foldl_setRaw_raw, State.latched_lane,
    State.latched_raw, ha]

/-! ### Detection suspended (R27) -/

/-- The history and the envelope of a lane stand. -/
structure Lane.SameHistory (l m : Lane) : Prop where
  suspend : m.suspend = l.suspend
  x1 : m.x1 = l.x1
  x2 : m.x2 = l.x2
  envelope : m.envelope = l.envelope

theorem Lane.SameHistory.trans {l m n : Lane} (h : l.SameHistory m) (h' : m.SameHistory n) : l.SameHistory n :=
  ⟨h'.suspend.trans h.suspend, h'.x1.trans h.x1, h'.x2.trans h.x2, h'.envelope.trans h.envelope⟩

theorem State.closeAt_history (s : State) (L : LaneId) (n : Nat) :
    (s.lane L).SameHistory ((s.closeAt L n).lane L) := by
  unfold State.closeAt
  split
  · split
    · obtain ⟨c, hc⟩ := s.closeSpan_lane L ‹Span›
      rw [hc]
      exact ⟨rfl, rfl, rfl, rfl⟩
    · exact ⟨rfl, rfl, rfl, rfl⟩
  · exact ⟨rfl, rfl, rfl, rfl⟩

theorem Lane.blockEnd_history (l : Lane) (n a : Nat) : l.SameHistory { l.blockEnd n with analysis := a } := by
  have hring : l.SameRing l := ⟨rfl, rfl, rfl, rfl, rfl, rfl⟩
  rw [hring.blockEnd]
  exact ⟨rfl, rfl, rfl, rfl⟩

theorem State.finish_history (s : State) (L : LaneId) (due : Bool) :
    (s.lane L).SameHistory ((s.when due (·.finishAnalysis L)).lane L) := by
  cases due with
  | false => exact ⟨rfl, rfl, rfl, rfl⟩
  | true =>
    obtain ⟨c, hc⟩ := s.finishAnalysis_lane L
    rw [State.when_true, hc]
    exact ⟨rfl, rfl, rfl, rfl⟩

theorem State.grant_history (s : State) (L : LaneId) : (s.lane L).SameHistory (s.grant.lane L) := by
  rw [State.grant_lane]
  exact ⟨rfl, rfl, rfl, rfl⟩

/-- The anchors due leave the history, and every record its place, its disposition and, if it is LIVE, its state. -/
theorem State.anchored_records (s : State) (L : LaneId) : ∃ sp f, (s.anchored L).lane L = { s.lane L with
      span := sp, list := (s.lane L).list.map f } ∧
    ∀ r : Record, r.state = .live → (f r).state = .live ∧ (f r).disp = r.disp ∧ (f r).start = r.start ∧
      (f r).length = r.length := by
  have htake : ∀ (r : Record) (x : Int), (r.takeAnchor (s.lane L).analysis x).state = r.state ∧
      (r.takeAnchor (s.lane L).analysis x).disp = r.disp ∧ (r.takeAnchor (s.lane L).analysis x).start = r.start ∧
      (r.takeAnchor (s.lane L).analysis x).length = r.length := by
    intro r x
    rw [r.takeAnchor_frame]
    exact ⟨rfl, rfl, rfl, rfl⟩
  by_cases hdue : (s.lane L).noSpanDue (s.lane L).analysis
  · obtain ⟨x, hx⟩ := State.anchored_lane hdue
    refine ⟨(s.lane L).span, Record.takeAnchor (s.lane L).analysis x, hx, fun r hr => ?_⟩
    obtain ⟨hstate, hrest⟩ := htake r x
    exact ⟨hstate.trans hr, hrest⟩
  · simp only [Lane.noSpanDue, not_forall, not_not] at hdue
    obtain ⟨sp, hsp, hp, hn⟩ := hdue
    obtain ⟨y, hy⟩ := State.anchored_ended_lane hsp hp hn
    cases hf : sp.form with
    | unlisted =>
      rw [hf, if_neg (by decide)] at hy
      refine ⟨none, Record.takeAnchor (s.lane L).analysis y, hy, fun r hr => ?_⟩
      obtain ⟨hstate, hrest⟩ := htake r y
      exact ⟨hstate.trans hr, hrest⟩
    | listed =>
      rw [hf, if_pos rfl, updateRecord, List.map_map] at hy
      refine ⟨none, _, hy, fun r hr => ?_⟩
      dsimp only [Function.comp_apply]
      split
      · exact htake _ y
      · obtain ⟨hstate, hrest⟩ := htake r y
        exact ⟨hstate.trans hr, hrest⟩

/-- The clause of O50 about a position that suspends detection. -/
theorem position_suspends (s : State) (L : LaneId) (hopen : (s.lane L).state ≠ .closed)
    (hlt : (s.lane L).analysis < (s.lane L).fill)
    (h : s.missingAt L (s.lane L).analysis = true ∨ ∃ r ∈ (s.lane L).list, r.state = .live ∧ r.disp = .applied ∧
      r.start ≤ (s.lane L).analysis ∧ (s.lane L).analysis ≤ r.last) :
    ∃ t : State, exec (.analysePosition L) s = .next t ∧ (t.lane L).suspend = 0 ∧ (t.lane L).x1 = (s.lane L).x1 ∧
      (t.lane L).x2 = (s.lane L).x2 ∧ (t.lane L).envelope = (s.lane L).envelope := by
  have hcan : (s.lane L).canAnalyse = true := by
    simp only [Lane.canAnalyse, Bool.and_eq_true, decide_eq_true_eq]
    exact ⟨(Lane.isOpen_iff _).2 hopen, hlt⟩
  obtain ⟨sp, f, hlane, hrecords⟩ := s.anchored_records L
  have hclass : (s.anchored L).classify L (s.lane L).analysis =
      (s.anchored L).setLane L { (s.anchored L).lane L with suspend := 0 } := by
    refine State.classify_suspends ?_
    rw [State.anchored_missingAt, hlane]
    refine h.imp_right fun ⟨r, hr, hlive, happ, hlo, hhi⟩ => ?_
    obtain ⟨hstate, hdisp, hstart, hlength⟩ := hrecords r hlive
    refine ⟨f r, List.mem_map_of_mem hr, ?_, ?_⟩
    · simp [Record.mergeable, hstate, hdisp, happ]
    · simpa [Record.covers, Record.last, hstart, hlength] using ⟨hlo, hhi⟩
  have htested : ({ s.lane L with suspend := 0 } : Lane).SameHistory ((s.tested L).lane L) := by
    rw [State.tested, hclass]
    refine Lane.SameHistory.trans ?_ (State.closeAt_history _ _ _)
    rw [State.lane_setLane_same, hlane]
    exact ⟨rfl, rfl, rfl, rfl⟩
  have hnext : ((s.tested L).lane L).SameHistory ((s.event.analyseNext L).lane L) := by
    rw [State.analyseNext_eq, State.lane_modLane_same]
    exact Lane.blockEnd_history _ _ _
  obtain ⟨hsuspend, hx1, hx2, henv⟩ := ((htested.trans hnext).trans
    (State.finish_history _ L ((s.event.analyseNext L).lane L).finishDue)).trans (State.grant_history _ L)
  exact ⟨_, exec_analysePosition hcan, hsuspend, hx1, hx2, henv⟩

/-! ### A lane without span and records (R27 to R29) -/

/-- The clause of O50 about a lane with no span and an empty list. -/
theorem position_enters_history (s : State) (L : LaneId) (hwf : s.storeWf) (hs : (s.lane L).state = .active)
    (hlt : (s.lane L).analysis < (s.lane L).fill) (hsp : (s.lane L).span = none) (hl : (s.lane L).list = [])
    (hvalid : s.missingAt L (s.lane L).analysis = false) :
    let l := s.lane L
    let n := l.analysis
    let x := s.rawAt L n
    let profile := l.profileOf (s.carriedNext L)
    let m := (x - 2 * l.x1 + l.x2).natAbs
    (l.suspend < 2 →
      ∃ t : State, exec (.analysePosition L) s = .next t.grant ∧ t.lane L = { l with
        x1 := x, x2 := l.x1, suspend := l.suspend + 1, analysis := n + 1, blocks := (l.blockEnd n).blocks }) ∧
    (l.suspend = 2 → 64 * m ≤ max l.envelope.toNat profile.emin * profile.t →
      ∃ t : State, exec (.analysePosition L) s = .next t.grant ∧ t.lane L = { l with
        x1 := x, x2 := l.x1, envelope := l.envelope + (16 * (m : Int) - l.envelope) / 64, analysis := n + 1
        blocks := (l.blockEnd n).blocks }) := by
  intro l n x profile m
  have hanchored : (s.anchored L).lane L = l := by
    rw [State.anchored_opened (Lane.noSpanDue_of_none hsp _) (by simp [hl]), State.latched_lane, State.lane_event]
  have hresult : l.unflagged profile x → ∃ t : State, exec (.analysePosition L) s = .next t.grant ∧
      t.lane L = { l.heard x with analysis := n + 1, blocks := (l.blockEnd n).blocks } := by
    intro hu
    obtain ⟨x1, x2, k, e, hfields⟩ := l.heard_fields x
    have htested := State.tested_unflagged hwf hanchored (State.anchored_raw (Lane.noSpanDue_of_none hsp _)) hvalid
      (by simp [l, hl]) hu
    rw [State.closeAt_open (by rw [State.lane_setLane_same, hfields]; simp [l, hsp])] at htested
    obtain ⟨t, hexec, hlane, -⟩ := exec_analysePosition_active hs hlt (by rw [htested, State.lane_setLane_same])
      (show l.SameRing (l.heard x) by rw [hfields]; exact ⟨rfl, rfl, rfl, rfl, rfl, rfl⟩)
    exact ⟨t, hexec, hlane⟩
  constructor
  · intro hlow
    obtain ⟨t, hexec, hlane⟩ := hresult (.inl hlow)
    refine ⟨t, hexec, hlane.trans ?_⟩
    rw [Lane.heard, if_pos hlow, Lane.enterHistory, Nat.min_eq_left hlow]
  · intro hfull hle
    obtain ⟨t, hexec, hlane⟩ := hresult (.inr ⟨hfull, hle⟩)
    refine ⟨t, hexec, hlane.trans ?_⟩
    have hkeep : min (l.suspend + 1) 2 = l.suspend := by omega
    rw [Lane.heard, if_neg (by omega), Lane.enterHistory]
    dsimp only
    rw [hkeep]
    rfl

/-! ### A span at its end, and after it -/

theorem Record.burstBeyond_eq (r : Record) (n : Nat) :
    r.burstBeyond n = { r with kind := if r.kind = .click ∧ n < r.length then .burst else r.kind } := by
  unfold Record.burstBeyond
  split <;> rfl

theorem updateRecord_one {r : Record} {st : Nat} (h : r.start = st) (f : Record → Record) :
    updateRecord st f [r] = [f r] := by
  simp [updateRecord, h]

theorem findRecord_head {r : Record} {st : Nat} (h : r.start = st) (rs : List Record) :
    findRecord st (r :: rs) = some r := by
  simp [findRecord, h]

theorem Record.covers_before {r : Record} {n : Nat} (h : r.last < n) : r.covers n = false := by
  simp [Record.covers, h]

/-- The clause of O50 about a LISTED span that closes. -/
theorem position_closes_span (s : State) (L : LaneId) (sp : Span) (r : Record) (hwf : s.storeWf)
    (hs : (s.lane L).state = .active) (hlt : (s.lane L).analysis < (s.lane L).fill) (hsp : (s.lane L).span = some sp)
    (hf : sp.form = .listed) (hl : (s.lane L).list = [r]) (hst : r.start = sp.start) (hg : sp.phase = .growing)
    (hn : sp.last = (s.lane L).analysis) (ho : r.state = .opened)
    (hvalid : s.missingAt L (s.lane L).analysis = false)
    (hu : (s.lane L).unflagged ((s.lane L).profileOf (s.carriedNext L)) (s.rawAt L (s.lane L).analysis)) :
    let l := s.lane L
    let kind := if r.kind = .click ∧ sp.lmax < r.length then Kind.burst else r.kind
    ∃ t : State, exec (.analysePosition L) s = .next t.grant ∧
      (t.lane L).span = some { sp with phase := .waiting } ∧ (t.lane L).list = [{ r with kind := kind }] ∧
      (t.lane L).counters =
        (if sp.own = true ∧ kind = .click then l.counters.set 3 (min (l.counters[3] + 1) 4294967295)
         else if sp.own = true ∧ kind = .burst then l.counters.set 4 (min (l.counters[4] + 1) 4294967295)
         else l.counters) ∧
      ∀ q, t.port q = { s.port q with
        reservation := Reservation.kept (s.port q).reservation fun v =>
          v.lane == L && decide (sp.start ≤ l.lastOf (l.ord v.first)) && decide (v.first ≤ sp.last) } := by
  intro l kind
  have hdue : (s.lane L).noSpanDue (s.lane L).analysis := Lane.noSpanDue_of_growing hsp hg _
  have hstill := State.anchored_opened hdue (by simp [hl, ho])
  have hanchored : (s.anchored L).lane L = l := by rw [hstill, State.latched_lane, State.lane_event]
  have hports : ∀ q, (s.anchored L).port q = s.port q := fun q => by
    rw [hstill, State.latched_port, State.port_event]
  obtain ⟨x1, x2, k, e, hfields⟩ := l.heard_fields (s.rawAt L l.analysis)
  have htested := State.tested_unflagged hwf hanchored (State.anchored_raw hdue) hvalid
    (by simp [l, hl, Record.mergeable, ho]) hu
  have hspan : (l.heard (s.rawAt L l.analysis)).span = some sp := by rw [hfields]; exact hsp
  have hlist : (l.heard (s.rawAt L l.analysis)).list = [r] := by rw [hfields]; exact hl
  have hrecord : findRecord sp.start (updateRecord sp.start (Record.burstBeyond sp.lmax) [r]) =
      some { r with kind := kind } := by
    rw [updateRecord_one hst, Record.burstBeyond_eq]
    exact findRecord_head (r := { r with kind := kind }) hst []
  rw [State.closeAt_closes (by rw [State.lane_setLane_same]; exact hspan) hg hn,
    State.closeSpan_of_record hf (by rw [State.lane_setLane_same, hlist]; exact hrecord)] at htested
  have hlane : (s.tested L).lane L = { (l.heard (s.rawAt L l.analysis)) with
      span := some { sp with phase := .waiting }
      list := [{ r with kind := kind }]
      counters := if sp.own = true ∧ kind = .click then l.counters.set 3 (min (l.counters[3] + 1) 4294967295)
        else if sp.own = true ∧ kind = .burst then l.counters.set 4 (min (l.counters[4] + 1) 4294967295)
        else l.counters } := by
    rw [htested, State.lane_modLane_same, State.waitingSpan_lane, State.lane_setLane_same, Lane.countedAs_eq, hlist,
      updateRecord_one hst, Record.burstBeyond_eq, hfields]
  obtain ⟨t, hexec, ht, hport, -⟩ := exec_analysePosition_active hs hlt hlane (l := l)
    (by rw [hfields]; exact ⟨rfl, rfl, rfl, rfl, rfl, rfl⟩)
  refine ⟨t, hexec, by rw [ht], by rw [ht], by rw [ht], fun q => ?_⟩
  rw [hport, htested, State.port_modLane, State.waitingSpan_port, State.port_setLane, State.lane_setLane_same, hports,
    hfields]
  rfl

/-- The clause of O50 about the position after a WAITING LISTED span. -/
theorem position_ends_listed (s : State) (L : LaneId) (sp : Span) (r : Record) (hwf : s.storeWf)
    (hs : (s.lane L).state = .active) (hlt : (s.lane L).analysis < (s.lane L).fill) (hsp : (s.lane L).span = some sp)
    (hf : sp.form = .listed) (hl : (s.lane L).list = [r]) (hst : r.start = sp.start) (hlast : sp.last = r.last)
    (hp : sp.phase = .waiting) (hn : sp.last + 1 = (s.lane L).analysis)
    (hstart : (s.lane L).start ≤ (s.lane L).analysis)
    (hring : (s.lane L).fill ≤ (s.lane L).analysis + 256 * (s.lane L).ring.length)
    (h : s.missingAt L (s.lane L).analysis = true ∨
      (s.lane L).unflagged ((s.lane L).profileOf (s.carriedNext L)) (s.rawAt L (s.lane L).analysis)) :
    let l := s.lane L
    ∃ t : State, exec (.analysePosition L) s = .next t.grant ∧ (t.lane L).span = none ∧
      (t.lane L).list = [{ r with
        state := .live
        after := some (if s.missingAt L l.analysis = true then 0 else s.rawAt L l.analysis) }] ∧
      (t.lane L).counters = l.counters ∧ (t.lane L).edit = l.edit := by
  intro l
  obtain ⟨y, hy⟩ := State.anchored_ended_lane hsp hp hn
  have hraw : (s.anchored L).store.raw = s.store.raw := by
    rw [State.anchored_ended_store hsp hp hn, if_pos hf, State.latched_raw, State.event_store]
  have hbefore : ¬r.start = l.analysis + 1 := by
    have hend : sp.last = r.start + r.length - 1 := hlast
    have hnext : sp.last + 1 = l.analysis := hn
    omega
  have htake : ∀ x, ({ r with state := .live, after := some x } : Record).takeAnchor l.analysis y =
      { r with state := .live, after := some x } := by
    intro x
    simp [Record.takeAnchor, hbefore]
  rw [if_pos hf, hl, updateRecord_one hst, State.latched_anchorAt hstart hlt hring, List.map_singleton, htake] at hy
  have hpast : r.last < l.analysis := by
    rw [← hlast, ← hn]
    exact Nat.lt_succ_self _
  have hr : ∀ r' ∈ [{ r with
      state := RecState.live
      after := some (if s.missingAt L l.analysis = true then 0 else s.rawAt L l.analysis) }],
      r'.mergeable = true → r'.covers l.analysis = false := by
    intro r' hr' _
    rw [List.mem_singleton.1 hr']
    exact Record.covers_before hpast
  have hcase : s.missingAt L l.analysis = true ∨ (s.missingAt L l.analysis = false ∧
      (∀ r' ∈ [{ r with
        state := RecState.live
        after := some (if s.missingAt L l.analysis = true then 0 else s.rawAt L l.analysis) }],
        r'.mergeable = true → r'.covers l.analysis = false) ∧
      l.unflagged ((s.anchored L).profileAt L l.analysis) ((s.anchored L).rawAt L l.analysis)) := by
    cases hmiss : s.missingAt L l.analysis with
    | true => exact .inl rfl
    | false =>
      rw [hmiss] at hr
      refine .inr ⟨rfl, hr, ?_⟩
      rw [State.anchored_rawAt hraw, State.profileAt, State.anchored_profile hwf]
      exact h.resolve_left (by rw [hmiss]; exact Bool.false_ne_true)
  obtain ⟨⟨x1, x2, k, e, htested⟩, -⟩ := State.tested_no_span hy rfl hcase
  obtain ⟨t, hexec, ht, -, -⟩ := exec_analysePosition_active hs hlt htested (l := l) ⟨rfl, rfl, rfl, rfl, rfl, rfl⟩
  exact ⟨t, hexec, by rw [ht], by rw [ht], by rw [ht], by rw [ht]⟩

/-- The clause of O50 about the position after a WAITING UNLISTED span. -/
theorem position_ends_unlisted (s : State) (L : LaneId) (sp : Span)
    (hs : (s.lane L).state = .active) (hlt : (s.lane L).analysis < (s.lane L).fill) (hsp : (s.lane L).span = some sp)
    (hf : sp.form = .unlisted) (hp : sp.phase = .waiting) (hn : sp.last + 1 = (s.lane L).analysis)
    (hstart : (s.lane L).start ≤ (s.lane L).analysis)
    (hring : (s.lane L).fill ≤ (s.lane L).analysis + 256 * (s.lane L).ring.length) (hl : (s.lane L).list = [])
    (h : s.missingAt L (s.lane L).analysis = true ∨ (s.lane L).suspend < 2) :
    let n := (s.lane L).analysis
    ∃ t : State, exec (.analysePosition L) s = .next t.grant ∧ (t.lane L).span = none ∧ (t.lane L).list = [] ∧
      t.store.missing = s.store.missing ∧
      t.store.raw = (s.event.writeUnlisted L sp.start (sp.last + 1 - sp.start)
        (if s.missingAt L n = true then 0 else s.rawAt L n)).store.raw := by
  intro n
  have hne : ¬sp.form = .listed := by rw [hf]; decide
  obtain ⟨y, hy⟩ := State.anchored_ended_lane hsp hp hn
  rw [if_neg hne, hl, List.map_nil] at hy
  have hcase : s.missingAt L n = true ∨ (s.missingAt L n = false ∧
      (∀ r ∈ ([] : List Record), r.mergeable = true → r.covers n = false) ∧
      (s.lane L).unflagged ((s.anchored L).profileAt L n) ((s.anchored L).rawAt L n)) := by
    cases hmiss : s.missingAt L n with
    | true => exact .inl rfl
    | false =>
      exact .inr ⟨rfl, by simp, .inl (h.resolve_left (by rw [hmiss]; exact Bool.false_ne_true))⟩
  obtain ⟨⟨x1, x2, k, e, htested⟩, hstore⟩ := State.tested_no_span hy rfl hcase
  obtain ⟨t, hexec, ht, -, hts⟩ := exec_analysePosition_active hs hlt htested (l := s.lane L)
    ⟨rfl, rfl, rfl, rfl, rfl, rfl⟩
  refine ⟨t, hexec, by rw [ht], by rw [ht], ?_, ?_⟩
  · rw [hts, hstore, State.anchored_missing]
  · rw [hts, hstore, State.anchored_ended_store hsp hp hn, if_neg hne, State.latched_writeUnlisted,
      State.latched_anchorAt hstart hlt hring]

/-- Settles O50: each clause is one of the theorems above, by what the position and the lane's span are. -/
theorem unflaggedPositionsMoveTheHistory : Obligations.UnflaggedPositionsMoveTheHistory :=
  ⟨position_suspends, position_enters_history, fun s L sp r hwf hs hlt hsp =>
    ⟨fun hf hl hst hlast =>
      ⟨fun hg hn ho hvalid hu => position_closes_span s L sp r hwf hs hlt hsp hf hl hst hg hn ho hvalid hu,
        fun hp hn hstart hring h =>
          position_ends_listed s L sp r hwf hs hlt hsp hf hl hst hlast hp hn hstart hring h⟩,
      fun hf hp hn hstart hring hl h => position_ends_unlisted s L sp hs hlt hsp hf hp hn hstart hring hl h⟩⟩

end Sys2Proof.Machine

/-! PROOF. A flagged sample, operation by operation (R28, R30 to R33, R36 to R38, R44): what it is settled against, the
span it opens and that span's record, and the growth of a GROWING span. -/

namespace Sys2Proof.Machine
open Sys2Proof

/-! ### Ratios and records of a span (R31, R36, R37) -/

/-- CLICK and BURST are the kinds with a ratio. -/
theorem Kind.ite_hasRatio (k : Kind) (a b : Nat) :
    (if k.hasRatio = true then a else b) = if k = .click ∨ k = .burst then a else b := by
  cases k <;> rfl

/-- The record of a span that takes its own and merges with none. -/
theorem Span.record_own {sp : Span} (h : sp.floorRatio = 0) (b : Int) : sp.record (spanRecord sp.start b) = {
    start := sp.start
    length := sp.last + 1 - sp.start
    kind := .click
    origin := .detector
    state := .opened
    disp := .applied
    ratio := ratioOf sp.peakM sp.peakE
    before := some b
    after := none } := by
  simp [Span.record, spanRecord, Kind.hasRatio, h]

/-- The record of a span that takes its own and absorbs `r`. -/
theorem Span.record_joined (sp : Span) (r : Record) (b : Int) :
    sp.record ((spanRecord sp.start b).join r b) = {
      start := sp.start
      length := sp.last + 1 - sp.start
      kind := r.kind
      origin := if r.kind = .click then .detector else r.origin
      state := .opened
      disp := .applied
      ratio := if r.kind = .click ∨ r.kind = .burst then max sp.floorRatio (ratioOf sp.peakM sp.peakE) else 0
      before := some b
      after := none } := by
  rw [← Kind.ite_hasRatio]
  unfold Span.record Record.join spanRecord
  cases r.kind <;> rfl

theorem spanList_one {sp : Span} {r : Record} (h : r.start = sp.start) (base : Record) (b : Int) :
    spanList sp base [] b [r] = [sp.record base] :=
  updateRecord_one h _

theorem spanList_two {sp : Span} {q r : Record} (hq : q.start = sp.start) (hr : r.start ≠ sp.start) (base : Record)
    (b : Int) : spanList sp base [] b [q, r] = [sp.record base, r] := by
  simp [spanList, updateRecord, hq, hr]

theorem spanList_absorbs {sp : Span} {q r : Record} (hq : q.start = sp.start) (hr : r.start ≠ sp.start) (base : Record)
    (b : Int) : spanList sp base [r] b [q, r] = [sp.record (base.join r b)] := by
  have hne : sp.start ≠ r.start := Ne.symm hr
  simp [spanList, updateRecord, removeRecord, hq, hne]

/-! ### Settling against one record (R30, R32) -/

theorem settleBehind_clear {n s0 reach : Nat} {rs : List Record} (h : ∀ r ∈ rs, n < r.start) :
    settleBehind n s0 reach rs = .clear := by
  have hnone : lastUpTo n rs = none := by
    rw [lastUpTo, List.filter_eq_nil_iff.2 fun r hr => by simpa using h r hr]
    rfl
  rw [settleBehind, hnone]

theorem settleBehind_merges {n s0 reach : Nat} {r : Record} (hn : r.start ≤ n) (hnear : s0 ≤ r.last + 1)
    (hm : r.mergeable = true) (hlen : max r.last reach + 1 - r.start ≤ 1024) :
    settleBehind n s0 reach [r] = .merge r := by
  have hlast : lastUpTo n [r] = some r := by simp [lastUpTo, hn]
  have hfit : max r.last reach + 1 - r.start ≤ Config.maxSpan := hlen
  rw [settleBehind, hlast]
  dsimp only
  rw [if_neg (Nat.not_lt.2 hnear), hm, decide_eq_true hfit]
  rfl

theorem settleAhead_absorbs {start e : Nat} {r : Record} (hnear : r.start ≤ e + 1) (hm : r.mergeable = true)
    (hlen : max e r.last + 1 - start ≤ 1024) : settleAhead true start e [r] = ([r], max e r.last, none) := by
  have hfit : max e r.last + 1 - start ≤ Config.maxSpan := hlen
  rw [settleAhead, if_neg (Nat.not_lt.2 hnear), hm, decide_eq_true hfit]
  rfl

theorem settleAhead_stops {start e : Nat} {r : Record} (hnear : r.start ≤ e + 1)
    (h : ¬(r.mergeable = true ∧ max e r.last + 1 - start ≤ 1024)) :
    settleAhead true start e [r] = ([], e, some r.start) := by
  have hfit : ¬(r.mergeable = true ∧ max e r.last + 1 - start ≤ Config.maxSpan) := h
  rw [settleAhead, if_neg (Nat.not_lt.2 hnear), if_neg]
  simpa only [Bool.true_and, Bool.and_eq_true, decide_eq_true_eq] using hfit

/-! ### The opening of a span -/

/-- The LISTED span that a flagged sample at `n` of measure `m` against `e` opens over `start` to `last`, with no record
beside it. -/
def Span.opening (p : Profile) (start last n m e : Nat) : Span where
  form := .listed
  phase := .growing
  start := start
  last := last
  cap := min (start + 1023) 4294967295
  pinned := false
  lastFlag := n
  guard := p.g
  lmax := p.lmax
  peakM := m
  peakE := e
  opened := n
  own := true
  floorRatio := 0

section
variable {v : State} {L : LaneId} {n s0 e1 : Nat} {p : Profile} {ns : List Record} {stop : Option Nat}

/-- With nothing behind it and a record to be had, the span takes its own record unless a record ahead drops it. -/
theorem State.openSpan_own (m e : Nat) (hp : (v.lane L).activeProfile = p)
    (hs0 : max (n - p.g) (v.lane L).start = s0) (hle : s0 ≤ n)
    (hbehind : settleBehind n s0 (n + p.g) (v.lane L).list = .clear) (hc : v.canTake L = true)
    (hahead : settleAhead true s0 (min (n + p.g) (min (s0 + 1023) 4294967295)) (startingAfter n (v.lane L).list) =
      (ns, e1, stop)) :
    v.openSpan L n m e = if stop.any (fun x => decide (x < n + 2)) = true then v.dropSpan L
      else v.beginListed L { Span.opening p s0 ((stop.map (· - 2)).getD e1) n m e with
        pinned := stop.isSome, floorRatio := mergedRatio ns 0 } (spanRecord s0 (v.anchorBefore L s0)) ns := by
  have hnot : ¬n < s0 := Nat.not_lt.2 hle
  simp only [State.openSpan, hp, hs0, hbehind, hc, Config.maxSpan, Config.maxPos, Bool.or_true, Nat.reduceSub, hahead,
    hnot, decide_false, Bool.not_true, Bool.false_and, Bool.or_false, Bool.false_or, if_true, Bool.not_false,
    Bool.and_true]
  rfl

/-- With an empty list and no record to be had, the span takes the unlisted slot or is dropped (R42). -/
theorem State.openSpan_unlisted (m e : Nat) (hp : (v.lane L).activeProfile = p)
    (hs0 : max (n - p.g) (v.lane L).start = s0) (hle : s0 ≤ n) (hl : (v.lane L).list = []) (hc : v.canTake L = false) :
    v.openSpan L n m e = if (v.lane L).slotOccupied = true then v.dropSpan L
      else (v.setSpan L (some { Span.opening p s0 (min (n + p.g) (min (s0 + 1023) 4294967295)) n m e with
        form := .unlisted, own := false })).countUnlisted L s0 := by
  have hnot : ¬n < s0 := Nat.not_lt.2 hle
  have hbehind : settleBehind n s0 (n + p.g) [] = .clear := settleBehind_clear (by simp)
  have hafter : startingAfter n [] = [] := rfl
  simp only [State.openSpan, hp, hs0, hl, hbehind, hafter, hc, settleAhead, Config.maxSpan, Config.maxPos, Nat.reduceSub,
    hnot, decide_false, Bool.or_false, Bool.false_or, Bool.not_false, Bool.true_and, Option.any_none]
  rfl

/-- The span merges into the record behind it, with no record ahead (R30). -/
theorem State.openSpan_merges {r : Record} (m e : Nat) (hp : (v.lane L).activeProfile = p)
    (hs0 : max (n - p.g) (v.lane L).start = s0) (hbehind : settleBehind n s0 (n + p.g) (v.lane L).list = .merge r)
    (hle : r.start ≤ n) (hafter : startingAfter n (v.lane L).list = []) :
    v.openSpan L n m e = v.beginListed L
      { Span.opening p r.start (min (n + p.g) (min (r.start + 1023) 4294967295)) n m e with
        own := false, floorRatio := if r.kind.hasRatio = true then r.ratio else 0 }
      { r with state := .opened, after := none, before := some (v.anchorBefore L r.start) } [] := by
  have hnot : ¬n < r.start := Nat.not_lt.2 hle
  simp only [State.openSpan, hp, hs0, hbehind, hafter, settleAhead, Config.maxSpan, Config.maxPos, Nat.reduceSub, hnot,
    decide_false, Bool.true_or, Bool.not_true, Bool.false_and, Bool.or_false, Option.any_none, if_true,
    Bool.true_and]
  rfl

end

/-! ### The record taken, and the marks of the merges (R31, R37, R38) -/

theorem mergedTimes_lane (L : LaneId) (lo hi k : Nat) (s : State) :
    (mergedTimes L lo hi k s).lane L = (Lane.mergeMark · lo hi)^[k] (s.lane L) := by
  induction k generalizing s with
  | zero => rfl
  | succ k ih => rw [mergedTimes, ih, State.merged_lane, Function.iterate_succ_apply]

/-- The list after a span has begun: its own record taken if it has one, and joined with those it absorbs. -/
def State.begunList (s : State) (L : LaneId) (sp : Span) (base : Record) (ns : List Record) : List Record :=
  spanList sp base ns (s.anchorBefore L sp.start)
    (if sp.own = true then insertRecord (spanRecord sp.start (s.anchorBefore L sp.start)) (s.lane L).list
      else (s.lane L).list)

theorem State.begunList_own {s : State} {L : LaneId} {sp : Span} {st : Nat} {b : Int} (hst : sp.start = st)
    (ho : sp.own = true) (hb : s.anchorBefore L st = b) (base : Record) (ns : List Record) :
    s.begunList L sp base ns = spanList sp base ns b (insertRecord (spanRecord st b) (s.lane L).list) := by
  rw [State.begunList, hst, if_pos ho, hb]

theorem State.begunList_before {s : State} {L : LaneId} {sp : Span} {r : Record} {st : Nat} {b : Int}
    (hst : sp.start = st) (ho : sp.own = true) (hb : s.anchorBefore L st = b) (hl : (s.lane L).list = [r])
    (hr : st < r.start) (base : Record) (ns : List Record) :
    s.begunList L sp base ns = spanList sp base ns b [spanRecord st b, r] := by
  have hinsert : insertRecord (spanRecord st b) [r] = [spanRecord st b, r] := if_pos hr.le
  rw [State.begunList_own hst ho hb, hl, hinsert]

/-- The part once the span has taken its own record, if it has one (R31). -/
def State.spanTaken (s : State) (L : LaneId) (sp : Span) : State :=
  if sp.own = true then (s.modLane L fun l =>
    { l with list := insertRecord (spanRecord sp.start (s.anchorBefore L sp.start)) l.list }).assess
  else s

theorem State.spanTaken_lane (s : State) (L : LaneId) (sp : Span) : ∃ lo ar, (s.spanTaken L sp).lane L = { s.lane L with
    list := if sp.own = true then insertRecord (spanRecord sp.start (s.anchorBefore L sp.start)) (s.lane L).list
      else (s.lane L).list
    low := lo
    armed := ar } := by
  unfold State.spanTaken
  by_cases ho : sp.own = true
  · obtain ⟨lo, ar, h⟩ := (State.assess_sameButPoolFlags (s.modLane L fun l =>
      { l with list := insertRecord (spanRecord sp.start (s.anchorBefore L sp.start)) l.list }) L).exists_flags
    rw [State.lane_modLane_same] at h
    refine ⟨lo, ar, ?_⟩
    rw [if_pos ho, if_pos ho, h]
  · refine ⟨(s.lane L).low, (s.lane L).armed, ?_⟩
    rw [if_neg ho, if_neg ho]

theorem State.beginListed_eq (s : State) (L : LaneId) (sp : Span) (base : Record) (ns : List Record) :
    s.beginListed L sp base ns =
      ((mergedTimes L sp.start sp.last (ns.length + if sp.own = true then 0 else 1)
        (((s.spanTaken L sp).setList L (spanList sp base ns (s.anchorBefore L sp.start)
          ((s.spanTaken L sp).lane L).list)).assess)).setSpan L (some sp)).recordTouched L sp.start sp.last := rfl

theorem State.beginListed_lane (s : State) (L : LaneId) (sp : Span) (base : Record) (ns : List Record) :
    ∃ lo ar, (s.beginListed L sp base ns).lane L =
      { (Lane.mergeMark · sp.start sp.last)^[ns.length + if sp.own = true then 0 else 1]
          { s.lane L with list := s.begunList L sp base ns, low := lo, armed := ar } with span := some sp } := by
  obtain ⟨lo, ar, htaken⟩ := s.spanTaken_lane L sp
  have hlist : spanList sp base ns (s.anchorBefore L sp.start) ((s.spanTaken L sp).lane L).list =
      s.begunList L sp base ns := by
    rw [htaken]
    rfl
  obtain ⟨lo', ar', hflags⟩ := (State.assess_sameButPoolFlags
    ((s.spanTaken L sp).setList L (s.begunList L sp base ns)) L).exists_flags
  refine ⟨lo', ar', ?_⟩
  rw [State.beginListed_eq, State.lane_recordTouched, State.setSpan, State.lane_modLane_same, mergedTimes_lane, hlist,
    hflags, State.setList, State.lane_modLane_same, htaken]

/-- A span that merges with nothing marks nothing. -/
theorem State.beginListed_lane_alone (s : State) (L : LaneId) {sp : Span} (ho : sp.own = true) (base : Record) :
    ∃ lo ar, (s.beginListed L sp base []).lane L = { s.lane L with
      list := s.begunList L sp base [], low := lo, armed := ar, span := some sp } := by
  obtain ⟨lo, ar, h⟩ := s.beginListed_lane L sp base []
  rw [if_pos ho] at h
  exact ⟨lo, ar, h⟩

/-- A span that merges with one record marks once, as the lane `l` would be marked whatever its list. -/
theorem State.beginListed_lane_merged {s : State} {L : LaneId} {l : Lane} {sp : Span} {base : Record}
    {rs ns bs : List Record} (hlane : s.lane L = { l with list := rs })
    (hk : ns.length + (if sp.own = true then 0 else 1) = 1) (hbs : s.begunList L sp base ns = bs) :
    ∃ lo ar, (s.beginListed L sp base ns).lane L = { l with
      list := bs
      low := lo
      armed := ar
      span := some sp
      edit := (l.mergeMark sp.start sp.last).edit
      blocks := (l.mergeMark sp.start sp.last).blocks } := by
  obtain ⟨lo, ar, h⟩ := s.beginListed_lane L sp base ns
  have hring : l.SameRing { l with list := bs, low := lo, armed := ar } := ⟨rfl, rfl, rfl, rfl, rfl, rfl⟩
  obtain ⟨hedit, hblocks⟩ := hring.mergeMark rfl sp.start sp.last
  rw [hk, Function.iterate_one, hbs, hlane, Lane.mergeMark_fields] at h
  dsimp only at h
  rw [hedit, hblocks] at h
  exact ⟨lo, ar, h⟩

/-- Where the blocks of a lane lie, once marked. -/
theorem Lane.mergeMark_sameRing (l : Lane) (lo hi : Nat) {m : Lane} (hm : m.start = l.start ∧ m.ring = l.ring ∧
    m.fill = l.fill ∧ m.release = l.release ∧ m.final = l.final) (hb : m.blocks = (l.mergeMark lo hi).blocks) :
    (l.mergeMark lo hi).SameRing m := by
  obtain ⟨h1, h2, h3, h4, h5⟩ := hm
  have hmark : ∃ ed bl, l.mergeMark lo hi = { l with edit := ed, blocks := bl } := ⟨_, _, l.mergeMark_fields lo hi⟩
  obtain ⟨ed, bl, hmark⟩ := hmark
  rw [hmark] at hb ⊢
  exact ⟨h1, h2, h3, h4, h5, hb⟩

/-! ### A span in the unlisted slot (R44) -/

theorem State.countUnlisted_lane (s : State) (L : LaneId) (st : Nat) : (s.countUnlisted L st).lane L = { s.lane L with
    armed := false
    counters := (s.lane L).counters.set 9 (min ((s.lane L).counters[9] + 1) 4294967295)
    blocks := ((s.lane L).setBlock ((s.lane L).ord st) { (s.lane L).block ((s.lane L).ord st) with
      tally := ((s.lane L).block ((s.lane L).ord st)).tally + 1 }).blocks } := by
  unfold State.countUnlisted
  dsimp only
  split
  · rw [State.lane_raise, State.lane_modLane_same]
    rfl
  · rw [State.lane_modLane_same]
    rfl

theorem State.countUnlisted_port (s : State) (L : LaneId) (st : Nat) (q : Port) :
    (s.countUnlisted L st).port q = { s.port q with
      entries := if (s.lane L).armed then (s.port q).entries.set (entryIndex 2 (some L)).val
          (s.foldedEntry q .unlisted (some L) st 0)
        else (s.port q).entries } := by
  unfold State.countUnlisted
  dsimp only
  by_cases h : (s.lane L).armed = true
  · rw [if_pos h, if_pos h, State.port_raise, State.foldedEntry_eq, State.port_modLane]
    rfl
  · rw [if_neg h, if_neg h, State.port_modLane]

/-! ### The growth of a span (R33) -/

/-- A span grown by a flagged sample at `n`, with room to grow. -/
def Span.grown (sp : Span) (n m e : Nat) : Span :=
  { sp with
    last := min (n + sp.guard) sp.cap
    lastFlag := n
    peakM := if sp.peakM < m then m else sp.peakM
    peakE := if sp.peakM < m then e else sp.peakE }

/-- The growth of a LISTED span that is not pinned and meets no record. -/
theorem State.growSpan_eq (v : State) (L : LaneId) {sp : Span} {r : Record} {n : Nat} (m e : Nat)
    (hpin : sp.pinned = false) (hroom : sp.last < min (n + sp.guard) sp.cap)
    (hafter : startingAfter sp.opened (v.lane L).list = []) (hf : sp.form = .listed)
    (hfind : findRecord sp.start (v.lane L).list = some r) :
    let rs := spanList (sp.grown n m e) r [] (v.anchorBefore L sp.start) (v.lane L).list
    let u := ((v.setSpan L (some (sp.grown n m e))).setList L rs).assess
    v.growSpan L sp n m e = if rs = (v.lane L).list then u
      else u.recordTouched L (sp.grown n m e).start (sp.grown n m e).last := by
  obtain ⟨form, phase, start, last, cap, pinned, lastFlag, guard, lmax, peakM, peakE, opened, own, floorRatio⟩ := sp
  subst hpin hf
  dsimp only at hroom hafter hfind
  by_cases hpeak : peakM < m
  · simp only [State.growSpan, Span.grown, hpeak, hroom, hafter, hfind, settleAhead, Bool.not_false, decide_true,
      Bool.and_true, if_true, Option.map_none, Option.getD_none, Option.isSome_none, List.isEmpty_nil]
    rfl
  · simp only [State.growSpan, Span.grown, hpeak, hroom, hafter, hfind, settleAhead, Bool.not_false, decide_true,
      Bool.and_true, if_true, if_false, Option.map_none, Option.getD_none, Option.isSome_none, List.isEmpty_nil]
    rfl

theorem State.growSpan_lane {v : State} {L : LaneId} {sp : Span} {r : Record} {n : Nat} (m e : Nat)
    (hf : sp.form = .listed) (hpin : sp.pinned = false) (hroom : sp.last < min (n + sp.guard) sp.cap)
    (hl : (v.lane L).list = [r]) (hst : r.start = sp.start) (hopened : r.start ≤ sp.opened) :
    ∃ lo ar, (v.growSpan L sp n m e).lane L = { v.lane L with
      span := some (sp.grown n m e), list := [(sp.grown n m e).record r], low := lo, armed := ar } := by
  have hafter : startingAfter sp.opened [r] = [] := by simp [startingAfter, hopened]
  have hfind : findRecord sp.start [r] = some r := findRecord_head hst []
  have hlist := spanList_one (sp := sp.grown n m e) hst r (v.anchorBefore L sp.start)
  have hgrow := v.growSpan_eq L m e hpin hroom (by rw [hl]; exact hafter) hf (by rw [hl]; exact hfind)
  rw [hl, hlist] at hgrow
  have h : (v.growSpan L sp n m e).lane L =
      ((v.setSpan L (some (sp.grown n m e))).setList L [(sp.grown n m e).record r]).assess.lane L := by
    rw [hgrow]
    split
    · rfl
    · rw [State.lane_recordTouched]
  obtain ⟨lo, ar, hflags⟩ := (State.assess_sameButPoolFlags
    ((v.setSpan L (some (sp.grown n m e))).setList L [(sp.grown n m e).record r]) L).exists_flags
  rw [State.setList, State.lane_modLane_same, State.setSpan, State.lane_modLane_same] at hflags
  exact ⟨lo, ar, h.trans hflags⟩

end Sys2Proof.Machine

/-! PROOF. The taking of a flagged sample (R28, R30, R31): its classification, the extent of the span it opens, and a
span that takes its own record and meets none. -/

namespace Sys2Proof.Machine
open Sys2Proof

/-! ### The sample at the analysis point -/

/-- The raw sample at the lane's analysis point. -/
def State.nextRaw (s : State) (L : LaneId) : Int := s.rawAt L (s.lane L).analysis

/-- The profile that position is tested under. -/
def State.nextProfile (s : State) (L : LaneId) : Profile := (s.lane L).profileOf (s.carriedNext L)

/-- Its measure (R28). -/
def State.nextMeasure (s : State) (L : LaneId) : Nat := (s.lane L).measure (s.nextRaw L)

/-- What its measure is tested against (R28). -/
def State.nextBase (s : State) (L : LaneId) : Nat := (s.lane L).thresholdBase (s.nextProfile L)

/-- The next position of an ACTIVE lane is a valid, tested and flagged sample (R26 to R28). -/
structure State.FlagsNext (s : State) (L : LaneId) : Prop where
  wf : s.storeWf
  active : (s.lane L).state = .active
  placed : (s.lane L).analysis < (s.lane L).fill
  valid : s.missingAt L (s.lane L).analysis = false
  full : (s.lane L).suspend = 2
  flagged : s.nextBase L * (s.nextProfile L).t < 64 * s.nextMeasure L

/-- From `s` to `t.grant` the position is taken and its sample enters the history, the envelope standing. -/
def State.TakesFlagged (s : State) (L : LaneId) (t : State) : Prop :=
  exec (.analysePosition L) s = .next t.grant ∧ (t.lane L).x1 = s.nextRaw L ∧ (t.lane L).x2 = (s.lane L).x1 ∧
    (t.lane L).suspend = 2 ∧ (t.lane L).envelope = (s.lane L).envelope ∧
    (t.lane L).analysis = (s.lane L).analysis + 1

theorem State.carriedNext_active {s : State} {L : LaneId} {w : WorkingCopy} (h : (s.lane L).active = some w) :
    s.carriedNext L = if ((s.lane L).analysis - (s.lane L).start) % 256 = 0 then w.generation
      else (s.store.checkpoint ((s.lane L).slotOf (((s.lane L).analysis - (s.lane L).start) / 256))).latch.generation := by
  rw [State.carriedNext, h]
  rfl

theorem Lane.activeProfile_of {l : Lane} {w : WorkingCopy} (h : l.active = some w) : l.activeProfile = w.profile := by
  simp [Lane.activeProfile, h]

section
variable {s : State} {L : LaneId}

/-- The classification of a flagged sample: the anchors due have reached nothing but the list. -/
theorem State.FlagsNext.classify (h : s.FlagsNext L) {rs : List Record}
    (hlane : (s.anchored L).lane L = { s.lane L with list := rs })
    (hraw : (s.anchored L).store.raw = s.store.raw)
    (hr : ∀ r ∈ rs, r.mergeable = true → r.covers (s.lane L).analysis = false) :
    ((s.lane L).span = none → (s.anchored L).classify L (s.lane L).analysis =
      ((s.anchored L).openSpan L (s.lane L).analysis (s.nextMeasure L) (s.nextBase L)).modLane L
        (Lane.enterHistory · (s.nextRaw L))) ∧
    ∀ sp, (s.lane L).span = some sp → sp.phase = .growing → (s.anchored L).classify L (s.lane L).analysis =
      ((s.anchored L).growSpan L sp (s.lane L).analysis (s.nextMeasure L) (s.nextBase L)).modLane L
        (Lane.enterHistory · (s.nextRaw L)) := by
  have hx : (s.anchored L).rawAt L (s.lane L).analysis = s.nextRaw L := State.anchored_rawAt hraw _
  have hprofile : (s.anchored L).profileAt L (s.lane L).analysis = s.nextProfile L := State.anchored_profile h.wf
  have hclass := State.classify_flagged (s := s.anchored L) (L := L) (n := (s.lane L).analysis)
    (by rw [State.anchored_missingAt]; exact h.valid) (by rw [hlane]; exact hr) (by rw [hlane]; exact h.full)
    (by rw [hx, hprofile, hlane]; exact decide_eq_true h.flagged)
  rw [hx, hprofile, hlane] at hclass
  exact hclass

theorem State.FlagsNext.heard (h : s.FlagsNext L) {k : Lane} (hhist : (s.lane L).SameHistory k) :
    k.enterHistory (s.nextRaw L) = { k with x1 := s.nextRaw L, x2 := (s.lane L).x1 } := by
  have hfull : k.suspend = 2 := hhist.suspend.trans h.full
  have hkeep : min (k.suspend + 1) 2 = k.suspend := by omega
  rw [Lane.enterHistory, hkeep, hhist.x1]

/-- What is left of the taking once the sample has opened, grown or dropped its span, which it does not close. -/
theorem State.FlagsNext.taken (h : s.FlagsNext L) {u : State} {k l : Lane}
    (hclass : (s.anchored L).classify L (s.lane L).analysis = u.modLane L (Lane.enterHistory · (s.nextRaw L)))
    (hu : u.lane L = k) (hhist : (s.lane L).SameHistory k)
    (hopen : ∀ sp, k.span = some sp → sp.phase = .growing → sp.last ≠ (s.lane L).analysis) (hring : l.SameRing k) :
    ∃ t : State, s.TakesFlagged L t ∧ t.lane L = { k with
        x1 := s.nextRaw L
        x2 := (s.lane L).x1
        analysis := (s.lane L).analysis + 1
        blocks := (l.blockEnd (s.lane L).analysis).blocks } ∧ ∀ q, t.port q = u.port q := by
  have htested : s.tested L = u.modLane L (Lane.enterHistory · (s.nextRaw L)) := by
    rw [State.tested, hclass]
    exact State.closeAt_open (by rw [State.lane_modLane_same, hu]; exact hopen)
  obtain ⟨t, hexec, ht, hport, -⟩ := exec_analysePosition_active h.active h.placed
    (m := { k with x1 := s.nextRaw L, x2 := (s.lane L).x1 }) (by rw [htested, State.lane_modLane_same, hu, h.heard hhist]) (l := l)
    ⟨hring.start, hring.ring, hring.fill, hring.release, hring.final, hring.blocks⟩
  refine ⟨t, ⟨hexec, ?_⟩, ht, fun q => ?_⟩
  · rw [ht]
    exact ⟨rfl, rfl, hhist.suspend.trans h.full, hhist.envelope, rfl⟩
  · rw [hport, htested, State.port_modLane]

/-- With no span, the anchors due may reach each record's own anchors. -/
theorem State.anchored_no_span (hsp : (s.lane L).span = none) : ∃ x,
    (s.anchored L).lane L = { s.lane L with
      list := (s.lane L).list.map (Record.takeAnchor (s.lane L).analysis x) } ∧
    (s.anchored L).store.raw = s.store.raw ∧ (s.anchored L).canTake L = s.canTake L ∧
    ∀ st, (s.anchored L).anchorBefore L st = s.event.anchorBefore L st := by
  have hdue := Lane.noSpanDue_of_none hsp (s.lane L).analysis
  obtain ⟨x, hx⟩ := State.anchored_lane hdue
  have hraw := State.anchored_raw hdue
  exact ⟨x, hx, hraw, State.anchored_canTake (by rw [hx]; exact List.length_map _), State.anchored_anchorBefore hraw⟩

end

/-! ### The extent of a new span -/

/-- A flagged sample at the analysis point of a lane with ACTIVE copy `w` and no span. -/
structure State.OpensNext (s : State) (L : LaneId) (w : WorkingCopy) : Prop extends s.FlagsNext L where
  started : (s.lane L).start ≤ (s.lane L).analysis
  copy : (s.lane L).active = some w
  range : w.profile.inRange
  free : (s.lane L).span = none

/-- The first position of a span that no record behind it moves (R30). -/
def State.spanFirst (s : State) (L : LaneId) (g : Nat) : Nat := max ((s.lane L).analysis - g) (s.lane L).start

/-- The ratio of the sample's own peak (R36). -/
def State.nextRatio (s : State) (L : LaneId) : Nat := ratioOf (s.nextMeasure L) (s.nextBase L)

/-- The record of a span that takes its own (R31). -/
def State.ownRecord (s : State) (L : LaneId) (first last : Nat) : Record where
  start := first
  length := last + 1 - first
  kind := .click
  origin := .detector
  state := .opened
  disp := .applied
  ratio := s.nextRatio L
  before := some (s.event.anchorBefore L first)
  after := none

/-- The span the sample opens with no record beside it. -/
def State.openingSpan (s : State) (L : LaneId) (w : WorkingCopy) (start last : Nat) : Span :=
  Span.opening w.profile start last (s.lane L).analysis (s.nextMeasure L) (s.nextBase L)

section
variable {s : State} {L : LaneId} {w : WorkingCopy}

theorem State.spanFirst_le (hst : (s.lane L).start ≤ (s.lane L).analysis) (g : Nat) :
    s.spanFirst L g ≤ (s.lane L).analysis :=
  max_le (Nat.sub_le _ _) hst

/-- A guard of at most 8 keeps the extent below the cap of R30. -/
theorem State.spanReach_fits (s : State) (L : LaneId) (hw : w.profile.inRange)
    (hcap : s.spanFirst L w.profile.g + 1023 ≤ 4294967295) :
    min (s.spanFirst L w.profile.g + 1023) 4294967295 = s.spanFirst L w.profile.g + 1023 ∧
    min ((s.lane L).analysis + w.profile.g) (min (s.spanFirst L w.profile.g + 1023) 4294967295) =
      (s.lane L).analysis + w.profile.g := by
  obtain ⟨-, -, -, hg, -⟩ := hw
  have hfirst : (s.lane L).analysis - w.profile.g ≤ s.spanFirst L w.profile.g := le_max_left _ _
  omega

theorem State.OpensNext.profile (h : s.OpensNext L w) {rs : List Record}
    (hlane : (s.anchored L).lane L = { s.lane L with list := rs }) :
    ((s.anchored L).lane L).activeProfile = w.profile := by
  rw [hlane]
  exact Lane.activeProfile_of h.copy

/-- With every record ahead and a record to be had, the sample opens a span of its own, or is dropped. -/
theorem State.OpensNext.openSpan_own (h : s.OpensNext L w) {rs ns : List Record} {e1 : Nat} {stop : Option Nat}
    (hlane : (s.anchored L).lane L = { s.lane L with list := rs }) (hc : (s.anchored L).canTake L = true)
    (hrs : ∀ r ∈ rs, (s.lane L).analysis < r.start)
    (hahead : settleAhead true (s.spanFirst L w.profile.g) (min ((s.lane L).analysis + w.profile.g)
      (min (s.spanFirst L w.profile.g + 1023) 4294967295)) rs = (ns, e1, stop)) :
    (s.anchored L).openSpan L (s.lane L).analysis (s.nextMeasure L) (s.nextBase L) =
      if stop.any (fun x => decide (x < (s.lane L).analysis + 2)) = true then (s.anchored L).dropSpan L
      else (s.anchored L).beginListed L
        { s.openingSpan L w (s.spanFirst L w.profile.g) ((stop.map (· - 2)).getD e1) with
          pinned := stop.isSome, floorRatio := mergedRatio ns 0 }
        (spanRecord (s.spanFirst L w.profile.g) ((s.anchored L).anchorBefore L (s.spanFirst L w.profile.g))) ns := by
  have hafter : startingAfter (s.lane L).analysis rs = rs :=
    List.filter_eq_self.2 fun r hr => decide_eq_true (hrs r hr)
  refine State.openSpan_own _ _ (h.profile hlane) (by rw [hlane]; rfl) (State.spanFirst_le h.started _) ?_ hc ?_
  · rw [hlane]
    exact settleBehind_clear hrs
  · rw [hlane]
    dsimp only
    rw [hafter]
    exact hahead

/-- A span that takes its own record and meets none leaves the list with that record. -/
theorem State.OpensNext.opens_alone (h : s.OpensNext L w) (hl : (s.lane L).list = []) (hc : s.canTake L = true)
    (htop : (s.lane L).analysis < 4294967295) :
    let first := s.spanFirst L w.profile.g
    let last := min ((s.lane L).analysis + w.profile.g) (min (first + 1023) 4294967295)
    ∃ t lo ar, s.TakesFlagged L t ∧ t.lane L = { s.lane L with
      x1 := s.nextRaw L
      x2 := (s.lane L).x1
      analysis := (s.lane L).analysis + 1
      list := [s.ownRecord L first last]
      span := some (s.openingSpan L w first last)
      blocks := ((s.lane L).blockEnd (s.lane L).analysis).blocks
      low := lo
      armed := ar } := by
  intro first last
  obtain ⟨x, hlane, hraw, htake, hanchor⟩ := State.anchored_no_span h.free
  rw [hl, List.map_nil] at hlane
  obtain ⟨hclass, -⟩ := h.classify hlane hraw (by simp)
  have hopen := h.openSpan_own hlane (htake.trans hc) (by simp) (by rw [settleAhead])
  rw [Option.any_none, if_neg Bool.false_ne_true] at hopen
  obtain ⟨lo, ar, hbegin⟩ := (s.anchored L).beginListed_lane_alone L
    (sp := s.openingSpan L w first last) rfl (spanRecord first ((s.anchored L).anchorBefore L first))
  have hlist : (s.anchored L).begunList L (s.openingSpan L w first last)
      (spanRecord first ((s.anchored L).anchorBefore L first)) [] = [s.ownRecord L first last] := by
    rw [State.begunList, hlane, hanchor]
    refine (spanList_one (sp := s.openingSpan L w first last) rfl _ _).trans ?_
    exact congrArg (fun r => [r]) (Span.record_own rfl _)
  have hlast : last ≠ (s.lane L).analysis := by
    obtain ⟨-, -, hg1, hg8, -⟩ := h.range
    have hfirst : (s.lane L).analysis - w.profile.g ≤ first := le_max_left _ _
    omega
  obtain ⟨t, htakes, ht, -⟩ := h.taken (hclass h.free) ((congrArg (State.lane · L) hopen).trans hbegin)
    (by rw [hlane]; exact ⟨rfl, rfl, rfl, rfl⟩)
    (by rintro sp hsp -; cases hsp; exact hlast) (l := s.lane L) (by rw [hlane]; exact ⟨rfl, rfl, rfl, rfl, rfl, rfl⟩)
  refine ⟨t, lo, ar, htakes, ?_⟩
  rw [ht, hlist, hlane]

end

end Sys2Proof.Machine

/-! PROOF. A flagged sample with no record to be had (R39, R42, R44), and beside a record behind (R30, R36 to R38). -/

namespace Sys2Proof.Machine
open Sys2Proof

section
variable {s : State} {L : LaneId} {w : WorkingCopy}

theorem State.reach_ne (s : State) (L : LaneId) (hw : w.profile.inRange) :
    (s.lane L).analysis + w.profile.g ≠ (s.lane L).analysis := by
  obtain ⟨-, -, hg, -⟩ := hw
  omega

/-! ### No record to be had (R42, R44) -/

theorem State.OpensNext.openSpan_unlisted (h : s.OpensNext L w)
    (hcap : s.spanFirst L w.profile.g + 1023 ≤ 4294967295)
    (hlane : (s.anchored L).lane L = { s.lane L with list := [] }) (hc : (s.anchored L).canTake L = false) :
    (s.anchored L).openSpan L (s.lane L).analysis (s.nextMeasure L) (s.nextBase L) =
      if (s.lane L).slotOccupied = true then (s.anchored L).dropSpan L
      else ((s.anchored L).setSpan L (some
        { s.openingSpan L w (s.spanFirst L w.profile.g) ((s.lane L).analysis + w.profile.g) with
          form := .unlisted, own := false })).countUnlisted L (s.spanFirst L w.profile.g) := by
  obtain ⟨-, hreach⟩ := s.spanReach_fits L h.range hcap
  have hopen := State.openSpan_unlisted (s.nextMeasure L) (s.nextBase L) (h.profile hlane)
    (s0 := s.spanFirst L w.profile.g) (by rw [hlane]; rfl) (State.spanFirst_le h.started _) (by rw [hlane]) hc
  rw [hreach, hlane] at hopen
  exact hopen

/-- The span takes the free unlisted slot. -/
theorem State.OpensNext.opens_unlisted (h : s.OpensNext L w) (hl : (s.lane L).list = []) (hc : s.canTake L = false)
    (hcap : s.spanFirst L w.profile.g + 1023 ≤ 4294967295) (hfree : (s.lane L).slotOccupied = false) :
    let l := s.lane L
    let first := s.spanFirst L w.profile.g
    ∃ t, s.TakesFlagged L t ∧ t.lane L = { l with
        x1 := s.nextRaw L
        x2 := l.x1
        analysis := l.analysis + 1
        list := []
        span := some { s.openingSpan L w first (l.analysis + w.profile.g) with form := .unlisted, own := false }
        armed := false
        counters := l.counters.set 9 (min (l.counters[9] + 1) 4294967295)
        blocks := ((l.setBlock (l.ord first)
          { l.block (l.ord first) with tally := (l.block (l.ord first)).tally + 1 }).blockEnd l.analysis).blocks } ∧
      ∀ q, t.port q = { s.port q with
        entries := if l.armed then (s.port q).entries.set (entryIndex 2 (some L)).val
            (s.event.foldedEntry q .unlisted (some L) first 0)
          else (s.port q).entries } := by
  intro l first
  have hstill := State.anchored_opened (Lane.noSpanDue_of_none h.free (s.lane L).analysis) (by simp [hl])
  have hlane : (s.anchored L).lane L = { l with list := [] } := by
    rw [hstill, State.latched_lane, State.lane_event, ← hl]
  have hports : ∀ q, (s.anchored L).port q = s.port q := fun q => by
    rw [hstill, State.latched_port, State.port_event]
  obtain ⟨x, -, hraw, htake, -⟩ := State.anchored_no_span h.free
  obtain ⟨hclass, -⟩ := h.classify hlane hraw (by simp)
  have hopen := h.openSpan_unlisted hcap hlane (htake.trans hc)
  rw [hfree, if_neg Bool.false_ne_true] at hopen
  have hu : ((s.anchored L).openSpan L (s.lane L).analysis (s.nextMeasure L) (s.nextBase L)).lane L = { l with
      list := []
      span := some { s.openingSpan L w first (l.analysis + w.profile.g) with form := .unlisted, own := false }
      armed := false
      counters := l.counters.set 9 (min (l.counters[9] + 1) 4294967295)
      blocks := (l.setBlock (l.ord first)
        { l.block (l.ord first) with tally := (l.block (l.ord first)).tally + 1 }).blocks } := by
    rw [hopen, State.countUnlisted_lane, State.setSpan, State.lane_modLane_same, hlane]
    rfl
  obtain ⟨t, htakes, ht, hport⟩ := h.taken (hclass h.free) hu ⟨rfl, rfl, rfl, rfl⟩
    (by rintro sp hsp -; cases hsp; exact s.reach_ne L h.range)
    (l := l.setBlock (l.ord first) { l.block (l.ord first) with tally := (l.block (l.ord first)).tally + 1 })
    ⟨rfl, rfl, rfl, rfl, rfl, rfl⟩
  refine ⟨t, htakes, ht, fun q => ?_⟩
  have hfold : ((s.anchored L).setSpan L (some
      { s.openingSpan L w first (l.analysis + w.profile.g) with form := .unlisted, own := false })).foldedEntry q
        .unlisted (some L) first 0 = s.event.foldedEntry q .unlisted (some L) first 0 :=
    State.foldedEntry_congr (by rw [State.setSpan, State.port_modLane, hports, State.port_event])
      (by rw [State.setSpan, State.modLane_events, State.anchored_events, State.event_events]) _ _
  rw [hport, hopen, State.countUnlisted_port, hfold, State.setSpan, State.port_modLane, State.lane_modLane_same, hports,
    hlane]

/-- A span dropped changes a counter alone (R39). -/
theorem State.OpensNext.drops (h : s.OpensNext L w) {rs : List Record}
    (hlane : (s.anchored L).lane L = { s.lane L with list := rs }) (hraw : (s.anchored L).store.raw = s.store.raw)
    (hr : ∀ r ∈ rs, r.mergeable = true → r.covers (s.lane L).analysis = false)
    (hopen : (s.anchored L).openSpan L (s.lane L).analysis (s.nextMeasure L) (s.nextBase L) =
      (s.anchored L).dropSpan L) :
    ∃ t, s.TakesFlagged L t ∧ t.lane L = { s.lane L with
      x1 := s.nextRaw L
      x2 := (s.lane L).x1
      analysis := (s.lane L).analysis + 1
      list := rs
      counters := (s.lane L).counters.set 10 (min ((s.lane L).counters[10] + 1) 4294967295)
      blocks := ((s.lane L).blockEnd (s.lane L).analysis).blocks } := by
  obtain ⟨hclass, -⟩ := h.classify hlane hraw hr
  have hu : ((s.anchored L).openSpan L (s.lane L).analysis (s.nextMeasure L) (s.nextBase L)).lane L = { s.lane L with
      list := rs, counters := (s.lane L).counters.set 10 (min ((s.lane L).counters[10] + 1) 4294967295) } := by
    rw [hopen, State.dropSpan, State.count_lane, hlane]
    rfl
  obtain ⟨t, htakes, ht, -⟩ := h.taken (hclass h.free) hu ⟨rfl, rfl, rfl, rfl⟩ (by simp [h.free]) (l := s.lane L)
    ⟨rfl, rfl, rfl, rfl, rfl, rfl⟩
  exact ⟨t, htakes, ht⟩

/-! ### One record beside the extent -/

theorem Record.takeAnchor_anchors (r : Record) (n : Nat) (x : Int) :
    ∃ b a, r.takeAnchor n x = { r with before := b, after := a } :=
  ⟨_, _, r.takeAnchor_frame n x⟩

/-- A record that starts beyond the position takes no anchor there unless it starts right after it without one. -/
theorem Record.takeAnchor_ahead {r : Record} {n : Nat} (hn : n < r.start) (hb : r.start = n + 1 → r.before ≠ none)
    (x : Int) : r.takeAnchor n x = r := by
  have hafter : ¬(r.after.isNone = true ∧ r.last + 1 = n) := fun h => by
    have hlast := h.2
    simp only [Record.last] at hlast
    omega
  have hbefore : ¬(r.before.isNone = true ∧ r.start = n + 1) := fun h => hb h.2 (Option.isNone_iff_eq_none.1 h.1)
  unfold Record.takeAnchor
  rw [if_neg hafter, if_neg hbefore, ite_self]

theorem Record.covers_ahead {r : Record} {n : Nat} (h : n < r.start) : r.covers n = false := by
  simp [Record.covers, h]

theorem Record.mergeable_iff (r : Record) : r.mergeable = true ↔ r.state = .live ∧ r.disp = .applied := by
  simp [Record.mergeable]

/-- The record of a span that merges into `r` (R30, R36). -/
def State.mergedBehind (s : State) (L : LaneId) (r : Record) (last : Nat) : Record :=
  { r with
    length := last + 1 - r.start
    state := .opened
    ratio := if r.kind = .click ∨ r.kind = .burst then max r.ratio (s.nextRatio L) else 0
    before := some (s.event.anchorBefore L r.start)
    after := none }

theorem State.record_mergedBehind (s : State) (L : LaneId) (w : WorkingCopy) (r : Record) (last : Nat) :
    ({ s.openingSpan L w r.start last with
      own := false
      floorRatio := if r.kind = .click ∨ r.kind = .burst then r.ratio else 0 } : Span).record
        { r with state := .opened, after := none, before := some (s.event.anchorBefore L r.start) } =
      s.mergedBehind L r last := by
  unfold Span.record State.mergedBehind
  dsimp only
  rw [Kind.ite_hasRatio]
  by_cases hk : r.kind = .click ∨ r.kind = .burst
  · simp only [if_pos hk]
    rfl
  · simp only [if_neg hk]
    rfl

/-- The span merges into a LIVE APPLIED record behind it. -/
theorem State.OpensNext.merges_behind (h : s.OpensNext L w) {r : Record} (hl : (s.lane L).list = [r])
    (hlive : r.state = .live) (happ : r.disp = .applied) (hn : r.start ≤ (s.lane L).analysis)
    (hlast : r.last < (s.lane L).analysis) (hnear : s.spanFirst L w.profile.g ≤ r.last + 1)
    (hlen : (s.lane L).analysis + w.profile.g + 1 - r.start ≤ 1024)
    (htop : (s.lane L).analysis + w.profile.g < 4294967296) :
    let l := s.lane L
    let last := l.analysis + w.profile.g
    ∃ t lo ar, s.TakesFlagged L t ∧ t.lane L = { l with
      x1 := s.nextRaw L
      x2 := l.x1
      analysis := l.analysis + 1
      list := [s.mergedBehind L r last]
      span := some { s.openingSpan L w r.start last with
        own := false, floorRatio := if r.kind = .click ∨ r.kind = .burst then r.ratio else 0 }
      edit := (l.mergeMark r.start last).edit
      blocks := ((l.mergeMark r.start last).blockEnd l.analysis).blocks
      low := lo
      armed := ar } := by
  intro l last
  obtain ⟨x, hlane, hraw, -, hanchor⟩ := State.anchored_no_span h.free
  obtain ⟨b, a, htaken⟩ := r.takeAnchor_anchors (s.lane L).analysis x
  rw [hl, List.map_singleton, htaken] at hlane
  have hmerge : ({ r with before := b, after := a } : Record).mergeable = true :=
    (Record.mergeable_iff _).2 ⟨hlive, happ⟩
  have hclear : ∀ q ∈ [({ r with before := b, after := a } : Record)], q.mergeable = true →
      q.covers (s.lane L).analysis = false := by
    intro q hq _
    rw [List.mem_singleton.1 hq]
    exact Record.covers_before hlast
  obtain ⟨hclass, -⟩ := h.classify hlane hraw hclear
  have hreach : min ((s.lane L).analysis + w.profile.g) (min (r.start + 1023) 4294967295) = last :=
    min_eq_left (le_min (by omega) (by omega))
  have hfit : max r.last last + 1 - r.start ≤ 1024 := by
    rw [max_eq_right (hlast.le.trans (Nat.le_add_right _ _))]
    exact hlen
  have hopen := State.openSpan_merges (r := { r with before := b, after := a }) (s.nextMeasure L) (s.nextBase L)
    (h.profile hlane) (s0 := s.spanFirst L w.profile.g) (by rw [hlane]; rfl)
    (by rw [hlane]; exact settleBehind_merges (r := { r with before := b, after := a }) hn hnear hmerge hfit) hn
    (by rw [hlane]; simp [startingAfter, hn])
  rw [hreach, Kind.ite_hasRatio] at hopen
  have hlist : (s.anchored L).begunList L { s.openingSpan L w r.start last with
      own := false, floorRatio := if r.kind = .click ∨ r.kind = .burst then r.ratio else 0 }
      { r with state := .opened, after := none, before := some ((s.anchored L).anchorBefore L r.start) } [] =
        [s.mergedBehind L r last] := by
    rw [State.begunList, hlane, hanchor, if_neg Bool.false_ne_true]
    refine (spanList_one (r := { r with before := b, after := a }) rfl _ _).trans ?_
    exact congrArg (fun q => [q]) (s.record_mergedBehind L w r last)
  obtain ⟨lo, ar, hbegin⟩ := State.beginListed_lane_merged hlane rfl hlist
  obtain ⟨t, htakes, ht, -⟩ := h.taken (hclass h.free) ((congrArg (State.lane · L) hopen).trans hbegin)
    ⟨rfl, rfl, rfl, rfl⟩ (by rintro sp hsp -; cases hsp; exact s.reach_ne L h.range)
    (l.mergeMark_sameRing _ _ ⟨rfl, rfl, rfl, rfl, rfl⟩ rfl)
  exact ⟨t, lo, ar, htakes, ht⟩

end

end Sys2Proof.Machine

/-! PROOF. A flagged sample beside a record ahead (R32, R34, R37 to R39), and in a GROWING span (R33). -/

namespace Sys2Proof.Machine
open Sys2Proof

section
variable {s : State} {L : LaneId} {w : WorkingCopy}

/-- The record of a span that absorbs `r` (R32, R37). -/
def State.absorbedAhead (s : State) (L : LaneId) (r : Record) (first last : Nat) : Record :=
  { s.ownRecord L first last with
    kind := r.kind
    origin := if r.kind = .click then .detector else r.origin
    ratio := if r.kind = .click ∨ r.kind = .burst then max r.ratio (s.nextRatio L) else 0 }

/-- The list after a span's own record has joined the list's only record. -/
theorem State.record_absorbedAhead (s : State) (L : LaneId) (w : WorkingCopy) (r : Record) (first last : Nat) :
    ({ s.openingSpan L w first last with
      floorRatio := if r.kind = .click ∨ r.kind = .burst then r.ratio else 0 } : Span).record
        ((spanRecord first (s.event.anchorBefore L first)).join r (s.event.anchorBefore L first)) =
      s.absorbedAhead L r first last := by
  refine (Span.record_joined { s.openingSpan L w first last with
    floorRatio := if r.kind = .click ∨ r.kind = .burst then r.ratio else 0 } r _).trans ?_
  unfold State.absorbedAhead
  by_cases hk : r.kind = .click ∨ r.kind = .burst
  · simp only [if_pos hk]
    rfl
  · simp only [if_neg hk]
    rfl

/-- The span absorbs a LIVE APPLIED record ahead of it. -/
theorem State.OpensNext.absorbs_ahead (h : s.OpensNext L w) {r : Record} (hl : (s.lane L).list = [r])
    (hc : s.canTake L = true) (hlive : r.state = .live) (happ : r.disp = .applied) (hn : (s.lane L).analysis < r.start)
    (hnear : r.start ≤ (s.lane L).analysis + w.profile.g + 1)
    (hlen : max ((s.lane L).analysis + w.profile.g) r.last + 1 - s.spanFirst L w.profile.g ≤ 1024)
    (hcap : s.spanFirst L w.profile.g + 1023 ≤ 4294967295) :
    let l := s.lane L
    let first := s.spanFirst L w.profile.g
    let last := max (l.analysis + w.profile.g) r.last
    ∃ t lo ar, s.TakesFlagged L t ∧ t.lane L = { l with
      x1 := s.nextRaw L
      x2 := l.x1
      analysis := l.analysis + 1
      list := [s.absorbedAhead L r first last]
      span := some { s.openingSpan L w first last with
        floorRatio := if r.kind = .click ∨ r.kind = .burst then r.ratio else 0 }
      edit := (l.mergeMark first last).edit
      blocks := ((l.mergeMark first last).blockEnd l.analysis).blocks
      low := lo
      armed := ar } := by
  intro l first last
  obtain ⟨x, hlane, hraw, htake, hanchor⟩ := State.anchored_no_span h.free
  obtain ⟨b, a, htaken⟩ := r.takeAnchor_anchors (s.lane L).analysis x
  rw [hl, List.map_singleton, htaken] at hlane
  have hmerge : ({ r with before := b, after := a } : Record).mergeable = true :=
    (Record.mergeable_iff _).2 ⟨hlive, happ⟩
  have hclear : ∀ q ∈ [({ r with before := b, after := a } : Record)], q.mergeable = true →
      q.covers (s.lane L).analysis = false := by
    intro q hq _
    rw [List.mem_singleton.1 hq]
    exact Record.covers_ahead hn
  obtain ⟨hclass, -⟩ := h.classify hlane hraw hclear
  obtain ⟨-, hreach⟩ := s.spanReach_fits L h.range hcap
  have hahead := (congrArg (settleAhead true first · [{ r with before := b, after := a }]) hreach).trans
    (settleAhead_absorbs (r := { r with before := b, after := a }) hnear hmerge hlen)
  have hopen := h.openSpan_own hlane (htake.trans hc) (by simpa using hn) hahead
  rw [Option.any_none, if_neg Bool.false_ne_true, show mergedRatio [({ r with before := b, after := a } : Record)] 0 =
    if r.kind.hasRatio = true then max 0 r.ratio else 0 from rfl, Kind.ite_hasRatio, Nat.zero_max] at hopen
  have hfirst : first < r.start := (State.spanFirst_le h.started _).trans_lt hn
  have hlist : (s.anchored L).begunList L { s.openingSpan L w first last with
      floorRatio := if r.kind = .click ∨ r.kind = .burst then r.ratio else 0 }
      (spanRecord first ((s.anchored L).anchorBefore L first)) [{ r with before := b, after := a }] =
        [s.absorbedAhead L r first last] := by
    rw [hanchor]
    refine (State.begunList_before (st := first) (r := { r with before := b, after := a }) rfl rfl (hanchor first)
      (by rw [hlane]) hfirst _ _).trans ?_
    refine (spanList_absorbs (r := { r with before := b, after := a }) rfl hfirst.ne' _ _).trans ?_
    exact congrArg (fun q => [q]) (s.record_absorbedAhead L w r first last)
  obtain ⟨lo, ar, hbegin⟩ := State.beginListed_lane_merged hlane rfl hlist
  have hlast : last ≠ (s.lane L).analysis := by
    have hle : (s.lane L).analysis + w.profile.g ≤ last := le_max_left _ _
    obtain ⟨-, -, hg, -⟩ := h.range
    omega
  obtain ⟨t, htakes, ht, -⟩ := h.taken (hclass h.free) ((congrArg (State.lane · L) hopen).trans hbegin)
    ⟨rfl, rfl, rfl, rfl⟩ (by rintro sp hsp -; cases hsp; exact hlast)
    (l.mergeMark_sameRing _ _ ⟨rfl, rfl, rfl, rfl, rfl⟩ rfl)
  exact ⟨t, lo, ar, htakes, ht⟩

/-! ### A record ahead that the span may not absorb (R32, R39) -/

/-- Record `r` lies within reach ahead of the position, alone on the list, holds its own anchor due there, and may not
be absorbed. -/
structure State.StopsNext (s : State) (L : LaneId) (w : WorkingCopy) (r : Record) : Prop extends s.OpensNext L w where
  only : (s.lane L).list = [r]
  had : s.canTake L = true
  ahead : (s.lane L).analysis < r.start
  near : r.start ≤ (s.lane L).analysis + w.profile.g + 1
  holds : r.start = (s.lane L).analysis + 1 → r.before ≠ none
  stops : ¬(r.mergeable = true ∧
    max ((s.lane L).analysis + w.profile.g) r.last + 1 - s.spanFirst L w.profile.g ≤ 1024)
  capped : s.spanFirst L w.profile.g + 1023 ≤ 4294967295

theorem State.StopsNext.anchored_lane {r : Record} (h : s.StopsNext L w r) :
    (s.anchored L).lane L = { s.lane L with list := [r] } ∧ (s.anchored L).store.raw = s.store.raw ∧
    (s.anchored L).canTake L = true ∧ ∀ st, (s.anchored L).anchorBefore L st = s.event.anchorBefore L st := by
  obtain ⟨x, hlane, hraw, htake, hanchor⟩ := State.anchored_no_span h.free
  rw [h.only, List.map_singleton, Record.takeAnchor_ahead h.ahead h.holds] at hlane
  exact ⟨hlane, hraw, htake.trans h.had, hanchor⟩

theorem State.StopsNext.openSpan {r : Record} (h : s.StopsNext L w r) :
    (s.anchored L).openSpan L (s.lane L).analysis (s.nextMeasure L) (s.nextBase L) =
      if r.start < (s.lane L).analysis + 2 then (s.anchored L).dropSpan L
      else (s.anchored L).beginListed L
        { s.openingSpan L w (s.spanFirst L w.profile.g) (r.start - 2) with pinned := true }
        (spanRecord (s.spanFirst L w.profile.g) ((s.anchored L).anchorBefore L (s.spanFirst L w.profile.g))) [] := by
  obtain ⟨hlane, -, htake, -⟩ := h.anchored_lane
  obtain ⟨-, hreach⟩ := s.spanReach_fits L h.range h.capped
  have hahead := (congrArg (settleAhead true (s.spanFirst L w.profile.g) · [r]) hreach).trans
    (settleAhead_stops h.near h.stops)
  have hopen := h.openSpan_own hlane htake (by simpa using h.ahead) hahead
  simp only [Option.any_some, decide_eq_true_eq] at hopen
  exact hopen

theorem State.StopsNext.classify {r : Record} (h : s.StopsNext L w r) :
    (s.anchored L).classify L (s.lane L).analysis =
      ((s.anchored L).openSpan L (s.lane L).analysis (s.nextMeasure L) (s.nextBase L)).modLane L
        (Lane.enterHistory · (s.nextRaw L)) := by
  obtain ⟨hlane, hraw, -⟩ := h.anchored_lane
  obtain ⟨hclass, -⟩ := h.toFlagsNext.classify hlane hraw (by simpa using fun _ => Record.covers_ahead h.ahead)
  exact hclass h.free

/-- A record right after the position drops the span. -/
theorem State.StopsNext.drops {r : Record} (h : s.StopsNext L w r) (hr : r.start = (s.lane L).analysis + 1) :
    ∃ t, s.TakesFlagged L t ∧ t.lane L = { s.lane L with
      x1 := s.nextRaw L
      x2 := (s.lane L).x1
      analysis := (s.lane L).analysis + 1
      list := [r]
      counters := (s.lane L).counters.set 10 (min ((s.lane L).counters[10] + 1) 4294967295)
      blocks := ((s.lane L).blockEnd (s.lane L).analysis).blocks } := by
  obtain ⟨hlane, hraw, -⟩ := h.anchored_lane
  exact h.toOpensNext.drops hlane hraw (by simpa using fun _ => Record.covers_ahead h.ahead)
    (h.openSpan.trans (if_pos (by omega)))

/-- The pinned span with its own record, before `r`. -/
theorem State.StopsNext.opens_pinned {r : Record} (h : s.StopsNext L w r)
    (hr : (s.lane L).analysis + 2 ≤ r.start) :
    let first := s.spanFirst L w.profile.g
    ∃ lo ar, ((s.anchored L).openSpan L (s.lane L).analysis (s.nextMeasure L) (s.nextBase L)).lane L = { s.lane L with
      list := [s.ownRecord L first (r.start - 2), r]
      low := lo
      armed := ar
      span := some { s.openingSpan L w first (r.start - 2) with pinned := true } } := by
  intro first
  obtain ⟨hlane, -, -, hanchor⟩ := h.anchored_lane
  have hfirst : first < r.start := (State.spanFirst_le h.started _).trans_lt h.ahead
  have hlist : (s.anchored L).begunList L { s.openingSpan L w first (r.start - 2) with pinned := true }
      (spanRecord first ((s.anchored L).anchorBefore L first)) [] = [s.ownRecord L first (r.start - 2), r] := by
    rw [hanchor]
    refine (State.begunList_before (st := first) rfl rfl (hanchor first) (by rw [hlane]) hfirst _ _).trans ?_
    refine (spanList_two rfl hfirst.ne' _ _).trans ?_
    exact congrArg (fun q => [q, r])
      (Span.record_own (sp := { s.openingSpan L w first (r.start - 2) with pinned := true }) rfl _)
  obtain ⟨lo, ar, hbegin⟩ := (s.anchored L).beginListed_lane_alone L
    (sp := { s.openingSpan L w first (r.start - 2) with pinned := true }) rfl
    (spanRecord first ((s.anchored L).anchorBefore L first))
  refine ⟨lo, ar, ?_⟩
  rw [h.openSpan, if_neg (by omega), hbegin, hlist, hlane]

/-- A record ahead truncates the span to two positions before it. -/
theorem State.StopsNext.truncates {r : Record} (h : s.StopsNext L w r) (hr : (s.lane L).analysis + 2 < r.start) :
    let first := s.spanFirst L w.profile.g
    ∃ t lo ar, s.TakesFlagged L t ∧ t.lane L = { s.lane L with
      x1 := s.nextRaw L
      x2 := (s.lane L).x1
      analysis := (s.lane L).analysis + 1
      list := [s.ownRecord L first (r.start - 2), r]
      span := some { s.openingSpan L w first (r.start - 2) with pinned := true }
      blocks := ((s.lane L).blockEnd (s.lane L).analysis).blocks
      low := lo
      armed := ar } := by
  intro first
  obtain ⟨lo, ar, hu⟩ := h.opens_pinned hr.le
  have hlast : r.start - 2 ≠ (s.lane L).analysis := by omega
  obtain ⟨t, htakes, ht, -⟩ := h.taken h.classify hu ⟨rfl, rfl, rfl, rfl⟩
    (by rintro sp hsp -; cases hsp; exact hlast) (l := s.lane L) ⟨rfl, rfl, rfl, rfl, rfl, rfl⟩
  exact ⟨t, lo, ar, htakes, ht⟩

/-- What is left of the taking when the sample's own span ends at the position and closes (R34). -/
theorem State.FlagsNext.taken_closed (h : s.FlagsNext L) {u : State} {k l : Lane} {sp : Span} {q : Record}
    {rs : List Record}
    (hclass : (s.anchored L).classify L (s.lane L).analysis = u.modLane L (Lane.enterHistory · (s.nextRaw L)))
    (hu : u.lane L = k) (hhist : (s.lane L).SameHistory k) (hsp : k.span = some sp) (hg : sp.phase = .growing)
    (hn : sp.last = (s.lane L).analysis) (hf : sp.form = .listed)
    (hrs : updateRecord sp.start (Record.burstBeyond sp.lmax) k.list = rs) (hq : findRecord sp.start rs = some q)
    (hring : l.SameRing k) :
    ∃ t : State, s.TakesFlagged L t ∧ t.lane L = { k with
      x1 := s.nextRaw L
      x2 := (s.lane L).x1
      analysis := (s.lane L).analysis + 1
      span := some { sp with phase := .waiting }
      list := rs
      counters := (k.countedAs sp.own q.kind).counters
      blocks := (l.blockEnd (s.lane L).analysis).blocks } := by
  have hv : (u.modLane L (Lane.enterHistory · (s.nextRaw L))).lane L =
      { k with x1 := s.nextRaw L, x2 := (s.lane L).x1 } := by
    rw [State.lane_modLane_same, hu, h.heard hhist]
  have htested : s.tested L = (u.modLane L (Lane.enterHistory · (s.nextRaw L))).closeSpan L sp := by
    rw [State.tested, hclass]
    exact State.closeAt_closes (by rw [hv]; exact hsp) hg hn
  rw [State.closeSpan_of_record hf (by rw [hv, hrs]; exact hq)] at htested
  have hlane : (s.tested L).lane L = { k with
      x1 := s.nextRaw L
      x2 := (s.lane L).x1
      span := some { sp with phase := .waiting }
      list := rs
      counters := (k.countedAs sp.own q.kind).counters } := by
    rw [htested, State.lane_modLane_same, State.waitingSpan_lane, hv, hrs, Lane.countedAs_eq, Lane.countedAs_eq]
  obtain ⟨t, hexec, ht, -⟩ := exec_analysePosition_active h.active h.placed hlane (l := l)
    ⟨hring.start, hring.ring, hring.fill, hring.release, hring.final, hring.blocks⟩
  refine ⟨t, ⟨hexec, ?_⟩, ht⟩
  rw [ht]
  exact ⟨rfl, rfl, hhist.suspend.trans h.full, hhist.envelope, rfl⟩

/-- A record two positions ahead: the span ends at the position itself and closes. -/
theorem State.StopsNext.closes {r : Record} (h : s.StopsNext L w r) (hr : r.start = (s.lane L).analysis + 2) :
    let l := s.lane L
    let first := s.spanFirst L w.profile.g
    let kind := if w.profile.lmax < l.analysis + 1 - first then Kind.burst else .click
    ∃ t lo ar, s.TakesFlagged L t ∧ t.lane L = { l with
      x1 := s.nextRaw L
      x2 := l.x1
      analysis := l.analysis + 1
      list := [{ s.ownRecord L first l.analysis with kind := kind }, r]
      span := some { s.openingSpan L w first l.analysis with pinned := true, phase := .waiting }
      counters := if kind = .burst then l.counters.set 4 (min (l.counters[4] + 1) 4294967295)
        else l.counters.set 3 (min (l.counters[3] + 1) 4294967295)
      blocks := (l.blockEnd l.analysis).blocks
      low := lo
      armed := ar } := by
  intro l first kind
  obtain ⟨lo, ar, hu⟩ := h.opens_pinned hr.ge
  have hend : r.start - 2 = l.analysis := by rw [hr]; rfl
  rw [hend] at hu
  have hfirst : first < r.start := (State.spanFirst_le h.started _).trans_lt h.ahead
  have hburst : (s.ownRecord L first l.analysis).burstBeyond w.profile.lmax =
      { s.ownRecord L first l.analysis with kind := kind } := by
    rw [Record.burstBeyond_eq]
    simp only [State.ownRecord, true_and]
    rfl
  have hlist : updateRecord first (Record.burstBeyond w.profile.lmax) [s.ownRecord L first l.analysis, r] =
      [{ s.ownRecord L first l.analysis with kind := kind }, r] := by
    rw [← hburst]
    simp [updateRecord, hfirst.ne', State.ownRecord]
  obtain ⟨t, htakes, ht⟩ := h.taken_closed h.classify hu ⟨rfl, rfl, rfl, rfl⟩ rfl rfl rfl rfl hlist
    (findRecord_head rfl [r]) (l := l) ⟨rfl, rfl, rfl, rfl, rfl, rfl⟩
  refine ⟨t, lo, ar, htakes, ht.trans ?_⟩
  rw [Lane.countedAs_eq]
  by_cases hlong : w.profile.lmax < l.analysis + 1 - first
  · simp only [kind, if_pos hlong]
    rfl
  · simp only [kind, if_neg hlong]
    rfl

/-! ### A GROWING span (R33) -/

/-- A flagged sample grows a LISTED span that is not pinned and has room. -/
theorem State.FlagsNext.grows (h : s.FlagsNext L) {sp : Span} {r : Record} (hsp : (s.lane L).span = some sp)
    (hg : sp.phase = .growing) (hf : sp.form = .listed) (hpin : sp.pinned = false) (hl : (s.lane L).list = [r])
    (hst : r.start = sp.start) (ho : r.state = .opened) (hopened : r.start ≤ sp.opened)
    (hcap : (s.lane L).analysis < sp.cap) (hguard : 1 ≤ sp.guard)
    (hroom : sp.last < min ((s.lane L).analysis + sp.guard) sp.cap) :
    let l := s.lane L
    let grown := sp.grown l.analysis (s.nextMeasure L) (s.nextBase L)
    ∃ t lo ar, s.TakesFlagged L t ∧ t.lane L = { l with
      x1 := s.nextRaw L
      x2 := l.x1
      analysis := l.analysis + 1
      list := [grown.record r]
      span := some grown
      blocks := (l.blockEnd l.analysis).blocks
      low := lo
      armed := ar } := by
  intro l grown
  have hdue : (s.lane L).noSpanDue (s.lane L).analysis := Lane.noSpanDue_of_growing hsp hg _
  have hlane : (s.anchored L).lane L = { l with list := [r] } := by
    rw [State.anchored_opened hdue (by simp [hl, ho]), State.latched_lane, State.lane_event, ← hl]
  obtain ⟨-, hclass⟩ := h.classify hlane (State.anchored_raw hdue) (by simp [Record.mergeable, ho])
  obtain ⟨lo, ar, hgrow⟩ := (s.anchored L).growSpan_lane (s.nextMeasure L) (s.nextBase L) hf hpin hroom
    (by rw [hlane]) hst hopened
  rw [hlane] at hgrow
  have hlast : min ((s.lane L).analysis + sp.guard) sp.cap ≠ (s.lane L).analysis := by omega
  obtain ⟨t, htakes, ht, -⟩ := h.taken (hclass sp hsp hg) hgrow ⟨rfl, rfl, rfl, rfl⟩
    (by rintro sp' hsp' -; cases hsp'; exact hlast) (l := l) ⟨rfl, rfl, rfl, rfl, rfl, rfl⟩
  exact ⟨t, lo, ar, htakes, ht⟩

end

end Sys2Proof.Machine

/-! PROOF. The clauses of O51 in the words of the statement, and the statement. -/

namespace Sys2Proof.Machine
open Sys2Proof

section
variable {s : State} {L : LaneId} {w : WorkingCopy}

/-- With no record to be had and the unlisted slot occupied, the span is dropped. -/
theorem State.OpensNext.drops_unlisted (h : s.OpensNext L w) (hl : (s.lane L).list = []) (hc : s.canTake L = false)
    (hcap : s.spanFirst L w.profile.g + 1023 ≤ 4294967295) (hocc : (s.lane L).slotOccupied = true) :
    ∃ t, s.TakesFlagged L t ∧ t.lane L = { s.lane L with
      x1 := s.nextRaw L
      x2 := (s.lane L).x1
      analysis := (s.lane L).analysis + 1
      list := []
      counters := (s.lane L).counters.set 10 (min ((s.lane L).counters[10] + 1) 4294967295)
      blocks := ((s.lane L).blockEnd (s.lane L).analysis).blocks } := by
  obtain ⟨x, hlane, hraw, htake, -⟩ := State.anchored_no_span h.free
  rw [hl, List.map_nil] at hlane
  exact h.drops hlane hraw (by simp) ((h.openSpan_unlisted hcap hlane (htake.trans hc)).trans (if_pos hocc))

/-- Below the top of the positions the cap is the longest span's. -/
theorem State.openingSpan_capped (s : State) (L : LaneId) (w : WorkingCopy) {start : Nat} (last : Nat)
    (h : start + 1023 ≤ 4294967295) :
    s.openingSpan L w start last = { s.openingSpan L w start last with cap := start + 1023 } := by
  unfold State.openingSpan Span.opening
  rw [min_eq_left h]

theorem Lane.slotOccupied_of_piece {l : Lane} (hsp : l.span = none)
    (hp : ∀ start len, l.piece ≠ some (.unlisted start len)) : l.slotOccupied = false := by
  cases hpiece : l.piece with
  | none => simp only [Lane.slotOccupied, hsp, hpiece, Bool.false_or]
  | some p =>
    cases p with
    | listed start => simp only [Lane.slotOccupied, hsp, hpiece, Bool.false_or]
    | unlisted start len => exact absurd hpiece (hp start len)

end

/-- Settles O51: each clause is the taking of the sample by what its extent meets (`opens_alone`, `opens_unlisted`,
`drops_unlisted`, `merges_behind`, `absorbs_ahead`, `truncates`, `closes`, `drops`, `grows`), read off field by
field. -/
theorem flaggedSampleOpensASpan : Obligations.FlaggedSampleOpensASpan := by
  constructor
  · intro s L w l n x generation profile m e first cap last hwf hs hlt hstart htop hw hrange hsp hl hvalid hfull hflag hc
    have hgen : generation = s.carriedNext L := (State.carriedNext_active hw).symm
    clear_value generation
    subst hgen
    have h : s.OpensNext L w := ⟨⟨hwf, hs, hlt, hvalid, hfull, hflag⟩, hstart, hw, hrange, hsp⟩
    obtain ⟨t, lo, ar, ⟨hexec, htakes⟩, ht⟩ := h.opens_alone hl hc htop
    obtain ⟨hx1, hx2, hsuspend, henv, hanalysis⟩ := htakes
    exact ⟨t, hexec, congrArg Lane.list ht, congrArg Lane.span ht, hx1, hx2, hsuspend, henv, hanalysis,
      by rw [ht], by rw [ht]⟩
  · intro s L w l before n x generation profile m e ratio hasRatio first entry own absorbs gives hwf hs hlt hstart htop
      hw hrange hvalid hfull hflag hcap
    have hgen : generation = s.carriedNext L := (State.carriedNext_active hw).symm
    clear_value generation
    subst hgen
    have h : s.FlagsNext L := ⟨hwf, hs, hlt, hvalid, hfull, hflag⟩
    have hopens : l.span = none → s.OpensNext L w := fun hsp => ⟨h, hstart, hw, hrange, hsp⟩
    have hcapped := fun last => s.openingSpan_capped L w (start := s.spanFirst L w.profile.g) last hcap
    have hstops : ∀ r, l.span = none → l.list = [r] → s.canTake L = true → n < r.start →
        r.start ≤ n + w.profile.g + 1 → (r.start = n + 1 → r.before ≠ none) → ¬absorbs r → s.StopsNext L w r :=
      fun r hsp hl hc hn hnear hb habs => ⟨hopens hsp, hl, hc, hn, hnear, hb, fun ⟨hm, hlen⟩ =>
        have ⟨hlive, happ⟩ := r.mergeable_iff.1 hm
        habs ⟨hlive, happ, hlen⟩, hcap⟩
    refine ⟨fun hsp hl hc => ⟨fun hp => ?_, fun start len hp => ?_⟩,
      fun r hsp hl hlive happ hn hlast hnear hlen => ?_,
      fun r hsp hl hn hnear hc => ⟨fun habs => ?_, fun habs hr => ?_, fun habs hr => ?_, fun habs hr hb => ?_⟩,
      fun r sp hsp hg hf hpin hl hst ho hopened hroom hguard hgrow => ?_⟩
    · obtain ⟨t, htakes, ht, hport⟩ := (hopens hsp).opens_unlisted hl hc hcap (Lane.slotOccupied_of_piece hsp hp)
      rw [hcapped] at ht
      exact ⟨t, htakes, congrArg Lane.list ht, congrArg Lane.span ht, by rw [ht], congrArg Lane.counters ht,
        by rw [ht]; rfl, hport⟩
    · have hocc : l.slotOccupied = true := by simp [Lane.slotOccupied, hp]
      obtain ⟨t, htakes, ht⟩ := (hopens hsp).drops_unlisted hl hc hcap hocc
      exact ⟨t, htakes, congrArg Lane.list ht, by rw [ht]; exact hsp, congrArg Lane.counters ht⟩
    · obtain ⟨t, lo, ar, htakes, ht⟩ := (hopens hsp).merges_behind hl hlive happ hn hlast hnear hlen htop
      exact ⟨t, htakes, congrArg Lane.list ht, congrArg Lane.span ht, by rw [ht], by rw [ht], by rw [ht]⟩
    · obtain ⟨hlive, happ, hlen⟩ := habs
      obtain ⟨t, lo, ar, htakes, ht⟩ := (hopens hsp).absorbs_ahead hl hc hlive happ hn hnear hlen hcap
      rw [hcapped] at ht
      exact ⟨t, htakes, congrArg Lane.list ht, congrArg Lane.span ht, by rw [ht]; rfl, by rw [ht]; rfl,
        by rw [ht]⟩
    · obtain ⟨t, lo, ar, htakes, ht⟩ := (hstops r hsp hl hc hn hnear (by omega) habs).truncates hr
      have hlength : r.start - 2 + 1 - first = r.start - 1 - first := by omega
      have hlist : (t.lane L).list = [{ own with length := r.start - 2 + 1 - first }, r] := congrArg Lane.list ht
      rw [hcapped] at ht
      rw [hlength] at hlist
      exact ⟨t, htakes, hlist, congrArg Lane.span ht, by rw [ht], by rw [ht]⟩
    · obtain ⟨t, lo, ar, htakes, ht⟩ := (hstops r hsp hl hc hn hnear (by omega) habs).closes hr
      rw [hcapped] at ht
      exact ⟨t, htakes, congrArg Lane.list ht, congrArg Lane.span ht, by rw [ht], congrArg Lane.counters ht⟩
    · obtain ⟨t, htakes, ht⟩ := (hstops r hsp hl hc hn hnear (fun _ => hb) habs).drops hr
      exact ⟨t, htakes, congrArg Lane.list ht, by rw [ht]; exact hsp, by rw [ht], congrArg Lane.counters ht⟩
    · obtain ⟨t, lo, ar, htakes, ht⟩ := h.grows hsp hg hf hpin hl hst ho hopened hroom hguard hgrow
      rw [Span.record, Kind.ite_hasRatio] at ht
      exact ⟨t, htakes, congrArg Lane.span ht, congrArg Lane.list ht, by rw [ht], by rw [ht]⟩

end Sys2Proof.Machine

/-! PROOF. What a lane does by itself leaves of every other lane, and the taking of a LOG frame
(R61, R62, R186). The statement O41. -/

namespace Sys2Proof.Machine
open Sys2Proof

/-! ### The other lanes while a lane is settled -/

section
variable {t : State} {L M : LaneId}

/-- A step of the settling, where it is due or not. -/
theorem State.when_other {due : Bool} {f : State → State} (h : (t.lane M).sameButPoolFlags ((f t).lane M)) :
    (t.lane M).sameButPoolFlags ((t.when due f).lane M) := by
  unfold State.when
  split
  · exact h
  · exact Lane.sameButPoolFlags_refl _

theorem State.openSlot_other (hM : M ≠ L) : (t.lane M).sameButPoolFlags ((t.openSlot L).lane M) :=
  (State.Places.refl L t).openSlot.other M hM

theorem State.landIfDue_other (hM : M ≠ L) : (t.lane M).sameButPoolFlags ((t.landIfDue L).lane M) :=
  State.when_other ((State.Places.refl L t).placeLanding.other M hM)

theorem State.fixIfDue_other (hM : M ≠ L) : (t.lane M).sameButPoolFlags ((t.fixIfDue L).lane M) :=
  State.when_other (by rw [State.lane_modLane_ne _ _ _ _ hM]; exact Lane.sameButPoolFlags_refl _)

theorem State.finishIfDue_other (hM : M ≠ L) : (t.lane M).sameButPoolFlags ((t.finishIfDue L).lane M) := by
  refine State.when_other ?_
  obtain ⟨u, hu, he⟩ := t.finishAnalysis_works L
  rw [he, State.lane_modLane_ne _ _ _ _ hM]
  exact hu.other M hM

theorem State.goIfDue_other (hM : M ≠ L) : (t.lane M).sameButPoolFlags ((t.goIfDue L).lane M) := by
  refine State.when_other ?_
  rw [State.sendGo_eq, State.lane_setPort, State.lane_setLane_ne _ _ _ _ hM]
  exact Lane.sameButPoolFlags_refl _

theorem State.drainIfDue_other (hM : M ≠ L) : (t.lane M).sameButPoolFlags ((t.drainIfDue L).lane M) := by
  refine State.when_other ?_
  have h := (t.answerDrains L).leaveLane_other hM .laneDrained (t.lane L).release
  rwa [← State.completeDrain_eq, State.answerDrains_lane] at h

/-- What a lane does by itself reaches of another lane its pool flags, and its blocks where the grant that ends the
event takes one of them. -/
theorem State.settleLane_other (t : State) (hM : M ≠ L) :
    ∃ b lo ar, (t.settleLane L).lane M = { t.lane M with blocks := b, low := lo, armed := ar } := by
  have hplaced := Lane.sameButPoolFlags_trans (State.openSlot_other (t := t) hM) (State.landIfDue_other hM)
  have hfixed := Lane.sameButPoolFlags_trans hplaced (State.fixIfDue_other hM)
  have hfinished := Lane.sameButPoolFlags_trans hfixed (State.finishIfDue_other hM)
  rw [State.settleLane_eq]
  generalize (((t.openSlot L).landIfDue L).fixIfDue L).finishIfDue L = u at hfinished
  have hgone := Lane.sameButPoolFlags_trans hfinished (State.goIfDue_other hM)
  have hdrained := State.drainIfDue_other (t := (u.goIfDue L).discardIfDue L) hM
  rw [State.discardIfDue_other _ hM] at hdrained
  rw [State.grant_lane, Lane.sameButPoolFlags_trans hgone hdrained]
  exact ⟨_, _, _, rfl⟩

end

/-! ### A LOG frame taken -/

/-- The frame sent and its records freed. -/
def State.logOut (s : State) (p : Port) (L : LaneId) (f : LogFrame) : State :=
  (s.modPort p fun q => { q with pointer := L }.send (logFrameOut L f (s.lane L).list)).modLane L Lane.logTaken

/-- The taking, before the lane is settled: the freeing is assessed. -/
def State.logHandedOver (s : State) (p : Port) (L : LaneId) (f : LogFrame) : State := (s.logOut p L f).assess

theorem Lane.logTaken_cons {l : Lane} {f : LogFrame} {rest : List LogFrame} (h : l.logQueue = f :: rest) :
    l.logTaken = { l with logQueue := rest, list := l.list.filter fun r => !f.starts.contains r.start } := by
  rw [Lane.logTaken, h]

theorem State.takeLog_eq {s : State} {L : LaneId} {f : LogFrame} {rest : List LogFrame}
    (h : (s.lane L).logQueue = f :: rest) (p : Port) : s.takeLog p L = (s.logHandedOver p L f).settleLane L := by
  simp only [State.takeLog, h]
  rfl

theorem exec_logFrameTaken {s : State} {p : Port} {L : LaneId} (h : s.chosen p = some (.log L)) :
    exec (.logFrameTaken p) s = .next (s.event.takeLog p L) := by
  show execLogFrameTaken p s = _
  rw [execLogFrameTaken, h]

section
variable (s : State) (p : Port) (L : LaneId) (f : LogFrame)

theorem State.logOut_lane : (s.logOut p L f).lane L = (s.lane L).logTaken := by
  rw [State.logOut, State.lane_modLane_same, State.lane_modPort]

theorem State.logOut_other {M : LaneId} (hM : M ≠ L) : (s.logOut p L f).lane M = s.lane M := by
  rw [State.logOut, State.lane_modLane_ne _ _ _ _ hM, State.lane_modPort]

theorem State.logOut_port : (s.logOut p L f).port p = { s.port p with
    pointer := L
    sent := (s.port p).sent ++ [logFrameOut L f (s.lane L).list] } := by
  rw [State.logOut, State.port_modLane, State.port_modPort_same]
  rfl

theorem State.logHandedOver_lane : (s.lane L).logTaken.sameButPoolFlags ((s.logHandedOver p L f).lane L) := by
  rw [← State.logOut_lane s p L f]
  exact State.assess_sameButPoolFlags _ L

theorem State.logHandedOver_other {M : LaneId} (hM : M ≠ L) :
    (s.lane M).sameButPoolFlags ((s.logHandedOver p L f).lane M) := by
  rw [← State.logOut_other s p L f hM]
  exact State.assess_sameButPoolFlags _ M

theorem State.logHandedOver_port : ({ s.port p with
    pointer := L
    sent := (s.port p).sent ++ [logFrameOut L f (s.lane L).list] } : PortRec).SameButEntries
      ((s.logHandedOver p L f).port p) := by
  rw [← State.logOut_port]
  exact ((s.logOut p L f).assess_port p).1

end

/-- Settles O41: the frame handed over (`State.logHandedOver`), and what the settling of the lane leaves of it and of
the other lanes. -/
theorem logFrameTakenFreesItsRecords : Obligations.LogFrameTakenFreesItsRecords := by
  intro s p L f rest hchosen hqueue l
  have hport := s.event.logHandedOver_port p L f
  have hlane := s.event.logHandedOver_lane p L f
  have hother := fun M (hM : M ≠ L) => s.event.logHandedOver_other p L f hM
  have hexec := exec_logFrameTaken hchosen
  rw [State.takeLog_eq (s := s.event) hqueue] at hexec
  rw [State.lane_event, Lane.logTaken_cons hqueue] at hlane
  generalize s.event.logHandedOver p L f = u at hport hlane hother hexec
  obtain ⟨hsent, hpointer⟩ := u.settleLane_sent L p
  refine ⟨u.settleLane L, hexec, ?_, ?_, fun hs hl => ?_, fun M hM => ?_⟩
  · rw [hsent, hport, State.port_event]
    rfl
  · rw [hpointer, hport]
  · have hstate : (u.lane L).state = .active := by rw [hlane]; exact hs
    have hlanding : (u.lane L).landing = [] := by rw [hlane]; exact hl
    obtain ⟨b, h, a, r, hfields⟩ := State.settleLane_slot_lane hstate hlanding
    rw [hfields, hlane]
    exact ⟨rfl, rfl⟩
  · obtain ⟨b, lo, ar, hfields⟩ := u.settleLane_other hM
    rw [hfields, hother M hM]
    exact ⟨rfl, rfl⟩

end Sys2Proof.Machine

/-! PROOF. The short requests of the Edit Unit (R79, R83, R84, R86) and the answering of parked SYNCs (R87): each check in
its order, then the effect. The statements O26, O27, O28 and O45. -/

namespace Sys2Proof.Machine
open Sys2Proof

/-! ### Refusals, and the port whose entry was taken -/

theorem State.refuse_eq (s : State) (p : Port) (tag : Half) (lane : Byte) (st : Status) (code : Byte) (n : Nat) :
    s.refuse p tag lane st code n = s.replied p tag lane st (code :: List.replicate (n - 1) 0#8) := rfl

theorem State.modPort_took (s : State) (p : Port) (rest : List Entry) (f : PortRec → PortRec) :
    (s.took p rest).modPort p f = (s.took p rest).setPort p (f { s.port p with queue := rest }) := by
  rw [State.modPort, State.took_port_same]

/-! ### The SYNC condition (R87) -/

/-- A mark at or below `n`, as the statements write it. -/
theorem Option.any_le_iff (m : Option Nat) (n : Nat) :
    (m.any fun x => decide (x ≤ n)) = true ↔ ∃ x, m = some x ∧ x ≤ n := by
  simp [Option.any_eq_true]

/-- A block holds back a SYNC that captured `n` when it is DIRTY or RENDERING under a mark at or below `n`. -/
theorem Lane.holdsSync_iff (l : Lane) (n : Nat) : l.holdsSync n = true ↔
    ∃ j, l.oldest ≤ j ∧ j < l.oldest + l.ring.length ∧
      (((l.block j).state = .dirty ∧ ∃ x, (l.block j).mark = some x ∧ x ≤ n) ∨
        ((l.block j).state = .rendering ∧
          ((∃ x, (l.block j).mark = some x ∧ x ≤ n) ∨ ∃ x, (l.block j).touch = some x ∧ x ≤ n))) := by
  simp only [Lane.holdsSync, List.any_eq_true, Lane.mem_ordinals, Bool.or_eq_true, Bool.and_eq_true, beq_iff_eq,
    Option.any_le_iff, and_assoc]

theorem Parked.syncReady_iff (k : Parked) (L : LaneId) (l : Lane) :
    k.syncReady L l = true ↔ k.lane = L ∧ ∃ n, k.kind = .sync n ∧ l.holdsSync n = false := by
  unfold Parked.syncReady
  cases k.kind <;> simp

/-! ### SYNC (R86) -/

theorem exec_sync {s : State} {p : Port} {tag : Half} {lane : Byte} {rest : List Entry}
    (h : s.offers p (.whole tag lane .sync) rest) :
    exec (.sync p tag lane) s = .next ((s.took p rest).sync p tag lane) :=
  State.take_offers h (·.sync p tag lane)

/-- Settles O28: the checks of `State.sync` in their order, its test read by `Lane.holdsSync_iff`. -/
theorem syncIsAnsweredOrParked : Obligations.SyncIsAnsweredOrParked := by
  intro s p tag lane rest hoff refused
  have hexec := exec_sync hoff
  refine ⟨fun h => ?_, fun L hL => ?_⟩
  · simp only [refused, hexec, State.sync, laneOf_none h]
    rfl
  intro l low waits
  have hwaits : waits ↔ l.holdsSync l.edit = true := (l.holdsSync_iff l.edit).symm
  have hparked : ((s.took p rest).port p).parkedCount = (s.port p).parkedCount := by
    rw [State.took_port_same]
    rfl
  have hmax : ((s.port p).parkedCount < Config.parkedMax) = ((s.port p).parkedCount < 4) := rfl
  simp only [refused, hexec, State.sync, laneOf_of_toNat hL, State.took_lane, ← Lane.isOpen_iff, ← Lane.isOpen_false_iff,
    hwaits, hparked, hmax]
  refine ⟨fun hc => ?_, fun ho hw => ?_, fun ho hw hn => ?_, fun ho hw hn => ?_⟩
  · rw [if_neg (by simpa [l] using hc)]
    rfl
  · rw [if_pos ho, if_neg hw]
    rfl
  · rw [if_pos ho, if_pos hw, if_pos hn, State.park, State.modPort_took]
  · rw [if_pos ho, if_pos hw, if_neg (Nat.not_lt.2 hn)]
    rfl

/-! ### SYNC_ANSWER (R87) -/

theorem State.syncDue_iff (s : State) (L : LaneId) :
    s.syncDue L = true ↔ ∃ p, ∃ k ∈ (s.port p).parked, k.syncReady L (s.lane L) = true := by
  constructor
  · intro h
    simp only [State.syncDue, Bool.or_eq_true, List.any_eq_true] at h
    rcases h with h | h
    · exact ⟨.A, h⟩
    · exact ⟨.B, h⟩
  · rintro ⟨p, h⟩
    simp only [State.syncDue, Bool.or_eq_true, List.any_eq_true]
    cases p
    · exact .inl h
    · exact .inr h

/-- The ports are all that the answering of parked SYNCs reaches. -/
theorem State.answerSyncs_rest (s : State) (L : LaneId) :
    s.answerSyncs L = { s with portA := (s.answerSyncs L).portA, portB := (s.answerSyncs L).portB } := rfl

theorem State.answerSyncs_port (s : State) (L : LaneId) (q : Port) :
    (s.answerSyncs L).port q =
      { s.port q with
        parked := (s.port q).parked.filter fun k => !k.syncReady L (s.lane L)
        answers := (s.port q).answers ++ ((s.port q).parked.filter fun k => k.syncReady L (s.lane L)).map fun k =>
          { tag := k.tag, lane := laneByte k.lane, status := .done, payload := k.donePayload, ofParked := true } } := by
  rw [State.answerSyncs, State.port_modPorts, PortRec.answerWhere_eq]

/-- A SYNC answered DONE carries its captured edit number. -/
theorem Parked.donePayload_sync {k : Parked} {n : Nat} (h : k.kind = .sync n) :
    k.donePayload = 0x14#8 :: beBytes 4 n := by
  simp only [Parked.donePayload, h]

/-- Settles O45: a SYNC is ready by `Lane.holdsSync_iff`, and each port answers its own by `State.answerSyncs_port`. -/
theorem syncAnswerAnswersTheSatisfied : Obligations.SyncAnswerAnswersTheSatisfied := by
  intro s L l low waits ready
  have hready : ∀ k : Parked, ready k = true ↔ k.lane = L ∧ ∃ n, k.kind = .sync n ∧ ¬ waits n := by
    intro k
    have hwaits : ∀ n, waits n ↔ l.holdsSync n = true := fun n => (l.holdsSync_iff n).symm
    simp only [hwaits, Bool.not_eq_true]
    exact k.syncReady_iff L l
  refine ⟨hready, fun hdue => ⟨s.event.answerSyncs L, ?_, s.event.answerSyncs_rest L, fun p => ?_⟩⟩
  · exact State.takePlace_due ((s.syncDue_iff L).2 hdue) (·.answerSyncs L)
  · rw [State.answerSyncs_port, State.port_event, State.lane_event]
    have hanswers : ∀ k ∈ (s.port p).parked.filter ready,
        ({ tag := k.tag, lane := laneByte k.lane, status := .done, payload := k.donePayload, ofParked := true } :
          Response) =
        { tag := k.tag
          lane := laneByte k.lane
          status := .done
          payload := 0x14#8 :: beBytes 4 (match k.kind with
            | .sync n => n
            | .drain => 0)
          ofParked := true } := by
      intro k hk
      obtain ⟨-, n, hkind, -⟩ := (hready k).1 (List.mem_filter.1 hk).2
      rw [Parked.donePayload_sync hkind, hkind]
    exact congrArg (fun as => { s.port p with
      parked := (s.port p).parked.filter fun k => !ready k
      answers := (s.port p).answers ++ as }) (List.map_congr_left hanswers)

/-! ### CURSOR SET and LIST READ (R83, R84) -/

theorem exec_cursorSet {s : State} {p : Port} {tag : Half} {lane : Byte} {pos : Word} {rest : List Entry}
    (h : s.offers p (.whole tag lane (.cursorSet pos)) rest) :
    exec (.cursorSet p tag lane pos) s = .next ((s.took p rest).cursorSet p tag lane pos) :=
  State.take_offers h (·.cursorSet p tag lane pos)

theorem exec_listRead {s : State} {p : Port} {tag : Half} {lane n : Byte} {rest : List Entry}
    (h : s.offers p (.whole tag lane (.listRead n)) rest) :
    exec (.listRead p tag lane n) s = .next ((s.took p rest).listRead p tag lane n) :=
  State.take_offers h (·.listRead p tag lane n)

/-- More records follow exactly when the read gives fewer than there are. -/
theorem flagByte_take {α : Type} (n : Nat) (l : List α) :
    flagByte (decide (n < l.length)) = if (l.take n).length < l.length then 1#8 else 0#8 := by
  have h : (l.take n).length < l.length ↔ n < l.length := by
    rw [List.length_take]
    omega
  simp only [flagByte, h, decide_eq_true_eq]

/-- Settles O27: CURSOR SET sets the cursor of a lane number it accepts; LIST READ runs through the checks of
`State.listRead`, and reports by `flagByte_take`. -/
theorem cursorSetAndListRead : Obligations.CursorSetAndListRead := by
  intro s p tag lane n pos rest
  refine ⟨fun hoff => ⟨fun h => ?_, fun L hL => ?_⟩, fun hoff => ?_⟩
  · simp only [exec_cursorSet hoff, State.cursorSet, laneOf_none h]
    rfl
  · simp only [exec_cursorSet hoff, State.cursorSet, laneOf_of_toNat hL, State.modPort_took]
    rfl
  intro cursor l ahead given refused
  have hcursor : ((s.took p rest).port p).cursor = cursor := by
    rw [State.took_port_same]
  have hread := exec_listRead hoff
  simp only [State.listRead, hcursor, State.took_lane] at hread
  refine ⟨fun hn => ?_, fun h1 h16 hc => ?_, fun h1 h16 ho => ?_⟩
  · rw [if_pos (by omega)] at hread
    exact hread
  · have hclosed : (s.lane cursor.lane).isOpen = false := (Lane.isOpen_false_iff _).2 hc
    rw [if_neg (by omega), if_neg (by simp [hclosed])] at hread
    exact hread
  · rw [if_neg (by omega), if_pos ((Lane.isOpen_iff _).2 ho), State.modPort_took, State.answer_eq] at hread
    rw [hread]
    simp only [State.listReport, State.cursorAfter, State.took_lane, flagByte_take, Lane.recordsFrom]
    rfl

/-! ### RESERVE (R79) -/

theorem exec_reserve {s : State} {p : Port} {tag : Half} {lane : Byte} {pos : Word} {rest : List Entry}
    (h : s.offers p (.whole tag lane (.reserve pos)) rest) :
    exec (.reserve p tag lane pos) s = .next ((s.took p rest).reserve p tag lane pos) :=
  State.take_offers h (·.reserve p tag lane pos)

theorem State.reserve_refused {s : State} {p : Port} {tag : Half} {lane : Byte} {pos : Word} {L : LaneId} {st : Status}
    (hL : lane.toNat = L.val) (h : (s.lane L).checkReserve pos.toNat = .inl st) :
    s.reserve p tag lane pos = s.replied p tag lane st (0x11#8 :: List.replicate 7 0#8) := by
  simp only [State.reserve, laneOf_of_toNat hL, h]
  rfl

theorem State.reserve_taken {s : State} {p : Port} {tag : Half} {lane : Byte} {pos : Word} {L : LaneId} {j : Nat}
    (hL : lane.toNat = L.val) (h : (s.lane L).checkReserve pos.toNat = .inr j) :
    s.reserve p tag lane pos =
      (s.modPort p fun q => { q with reservation := some ⟨L, (s.lane L).firstOf j⟩ }).replied p tag lane .done
        ((s.lane L).reserveReport j) := by
  simp only [State.reserve, laneOf_of_toNat hL, h]
  rfl

/-- Settles O26: the first check of `Lane.checkReserve` that fails names the status. -/
theorem reserveSetsThePortsReservation : Obligations.ReserveSetsThePortsReservation := by
  intro s p tag lane pos rest hoff refused
  have hexec := exec_reserve hoff
  refine ⟨fun h => ?_, fun L hL => ?_⟩
  · simp only [refused, hexec, State.reserve, laneOf_none h]
    rfl
  intro l first block
  have hlane : (s.took p rest).lane L = l := State.took_lane s p rest L
  have hrefused : ∀ st, l.checkReserve pos.toNat = .inl st → refused st := fun st h =>
    hexec.trans (congrArg _ (State.reserve_refused hL (hlane ▸ h)))
  have hopen : l.state ≠ .closed → ¬ l.isOpen = false := fun ho => by simp [(Lane.isOpen_iff l).2 ho]
  have hfirst : l.firstOf (l.ord pos.toNat) = first := rfl
  refine ⟨fun hc => hrefused _ ?_, fun ho hp => hrefused _ ?_, fun ho h1 h2 h3 => hrefused _ ?_, fun ho h1 h2 h3 => ?_⟩
  · rw [Lane.checkReserve, if_pos ((Lane.isOpen_false_iff l).2 hc)]
  · rw [Lane.checkReserve, if_neg (hopen ho), hfirst, if_pos hp]
  · rw [Lane.checkReserve, if_neg (hopen ho), hfirst, if_neg (by omega), if_pos h3]
  · have hcheck : l.checkReserve pos.toNat = .inr (l.ord pos.toNat) := by
      rw [Lane.checkReserve, if_neg (hopen ho), hfirst, if_neg (by omega), if_neg (by omega)]
    rw [hexec, State.reserve_taken hL (hlane.symm ▸ hcheck), hlane, State.modPort_took]
    rfl

end Sys2Proof.Machine

/-! PROOF. EDIT: its common checks and its answer (R66, R67), the marks it makes (R75, R76), and the change of disposition
of VETO and RESTORE (R68, R69, R81). The statements O21, O22 and O23. -/

namespace Sys2Proof.Machine
open Sys2Proof

/-! ### The answer of an EDIT (R67) -/

/-- An EDIT answered: the RESPONSE joins the port's answer list, and the port's reservation is cleared (R66). -/
def State.editAnswered (s : State) (p : Port) (tag : Half) (lane : Byte) (st : Status) (payload : List Byte) : State :=
  (s.replied p tag lane st payload).modPort p fun q => { q with reservation := none }

section
variable (s : State) (p : Port) (tag : Half) (lane : Byte) (st : Status) (b : List Byte)

@[simp] theorem State.editAnswered_lane (L : LaneId) : (s.editAnswered p tag lane st b).lane L = s.lane L := by
  cases p <;> rfl
@[simp] theorem State.editAnswered_store : (s.editAnswered p tag lane st b).store = s.store := by cases p <;> rfl
@[simp] theorem State.editAnswered_engine : (s.editAnswered p tag lane st b).engine = s.engine := by cases p <;> rfl
@[simp] theorem State.editAnswered_lines : (s.editAnswered p tag lane st b).lines = s.lines := by cases p <;> rfl
@[simp] theorem State.editAnswered_library : (s.editAnswered p tag lane st b).library = s.library := by cases p <;> rfl
@[simp] theorem State.editAnswered_tick : (s.editAnswered p tag lane st b).tick = s.tick := by cases p <;> rfl

theorem State.editAnswered_port_same : (s.editAnswered p tag lane st b).port p =
    { s.port p with
      inProgress := some tag
      answers := (s.port p).answers ++
        [{ tag := tag, lane := lane, status := st, payload := b, ofParked := false }]
      reservation := none } := by
  cases p <;> rfl

@[simp] theorem State.editAnswered_port_other :
    (s.editAnswered p tag lane st b).port (otherPort p) = s.port (otherPort p) := by
  cases p <;> rfl

end

/-- An EDIT that names no record carries the edit number, then zeros. -/
theorem editPayload_zeros (action : Byte) (edit : Nat) :
    editPayload action edit 0 0 0 = [0x10#8, action] ++ beBytes 4 edit ++ List.replicate 8 0#8 := by
  simp only [editPayload, List.append_assoc]
  rfl

theorem State.refuseEdit_clearReservation (s : State) (p : Port) (tag : Half) (lane : Byte) (st : Status) :
    (s.refuseEdit p tag lane st).clearReservation p = s.editAnswered p tag lane st
      ([0x10#8, 0#8] ++ beBytes 4 (s.editNumber lane) ++ List.replicate 8 0#8) := by
  rw [← editPayload_zeros]
  rfl

/-! ### The checks of an EDIT (R66) -/

/-- The action is one of the four. -/
def editDefined (a : EditArgs) : Prop := a.action = 1#8 ∨ a.action = 2#8 ∨ a.action = 3#8 ∨ a.action = 4#8

theorem PortRec.reserves_iff (q : PortRec) (L : LaneId) :
    q.reserves L = true ↔ ∃ v, q.reservation = some v ∧ v.lane = L := by
  simp [PortRec.reserves, Option.any_eq_true]

section
variable {s : State} {p : Port} {lane : Byte} {a : EditArgs} {L : LaneId}

theorem State.checkEdit_noLane (h : 5 < lane.toNat) : s.checkEdit p lane a = .inl .range := by
  rw [State.checkEdit, laneOf_none h]

theorem State.checkEdit_undefined (hL : lane.toNat = L.val) (h : ¬ editDefined a) :
    s.checkEdit p lane a = .inl .range := by
  simp only [State.checkEdit, laneOf_of_toNat hL]
  exact if_neg h

theorem State.checkEdit_defined (hL : lane.toNat = L.val) (h : editDefined a) : s.checkEdit p lane a =
    if (s.lane L).isOpen then
      if a.conditional = 0#8 ∨ (s.port p).reserves L then .inr L else .inl .lost
    else .inl .nolane := by
  simp only [State.checkEdit, laneOf_of_toNat hL]
  exact if_pos h

theorem State.checkEdit_closed (hL : lane.toNat = L.val) (h : editDefined a) (hc : (s.lane L).state = .closed) :
    s.checkEdit p lane a = .inl .nolane := by
  rw [State.checkEdit_defined hL h, if_neg (by simp [(Lane.isOpen_false_iff _).2 hc])]

theorem State.checkEdit_lost (hL : lane.toNat = L.val) (h : editDefined a) (ho : (s.lane L).state ≠ .closed)
    (hc : a.conditional ≠ 0#8) (hr : ∀ v, (s.port p).reservation = some v → v.lane ≠ L) :
    s.checkEdit p lane a = .inl .lost := by
  have hnone : ¬ (s.port p).reserves L = true := fun h => by
    obtain ⟨v, hv, hl⟩ := (PortRec.reserves_iff _ L).1 h
    exact hr v hv hl
  rw [State.checkEdit_defined hL h, if_pos ((Lane.isOpen_iff _).2 ho), if_neg (not_or.2 ⟨hc, hnone⟩)]

theorem State.checkEdit_passes (hL : lane.toNat = L.val) (h : editDefined a) (ho : (s.lane L).state ≠ .closed)
    (hc : a.conditional = 0#8 ∨ ∃ v, (s.port p).reservation = some v ∧ v.lane = L) :
    s.checkEdit p lane a = .inr L := by
  rw [State.checkEdit_defined hL h, if_pos ((Lane.isOpen_iff _).2 ho), if_pos (by rwa [PortRec.reserves_iff])]

/-- An EDIT that passes the common checks names an open lane. -/
theorem State.editNumber_of_checkEdit (h : s.checkEdit p lane a = .inr L) : s.editNumber lane = (s.lane L).edit := by
  unfold State.checkEdit at h
  split at h
  · cases h
  · rename_i M hM
    split at h
    · split at h
      · rename_i hopen
        split at h <;> cases h
        simp only [State.editNumber, hM, hopen, if_true]
      · cases h
    · cases h

theorem State.editNumber_noLane (h : 5 < lane.toNat) : s.editNumber lane = 0 := by
  rw [State.editNumber, laneOf_none h]

theorem State.editNumber_eq (hL : lane.toNat = L.val) :
    s.editNumber lane = if (s.lane L).state = .closed then 0 else (s.lane L).edit := by
  simp only [State.editNumber, laneOf_of_toNat hL]
  by_cases hc : (s.lane L).state = .closed
  · rw [if_pos hc, if_neg (by simp [(Lane.isOpen_false_iff _).2 hc])]
  · rw [if_neg hc, if_pos ((Lane.isOpen_iff _).2 hc)]

end

/-! ### An EDIT taken from its queue -/

section
variable {s : State} {p : Port} {tag : Half} {lane : Byte} {a : EditArgs} {rest : List Entry}
  (hoff : s.offers p (.whole tag lane (.edit a)) rest)
include hoff

/-- Each row takes its own action only, and then applies its own checks and effect. -/
theorem State.takeEdit_offers {ofRow : Bool} (h : ofRow = true) (own : State → LaneId → EditResult) :
    s.takeEdit p tag lane a ofRow own = .next ((s.took p rest).edit p tag lane a own) := by
  rw [State.takeEdit, if_pos h]
  exact State.take_offers hoff _

theorem exec_editVeto (h : actionOfVetoRow a.action = true) :
    exec (.editVeto p tag lane a) s = .next ((s.took p rest).edit p tag lane a (State.veto p a)) :=
  State.takeEdit_offers hoff h _

theorem exec_editRestore (h : (a.action == actionRestore) = true) :
    exec (.editRestore p tag lane a) s = .next ((s.took p rest).edit p tag lane a (State.restore p a)) :=
  State.takeEdit_offers hoff h _

theorem exec_editForce (h : (a.action == actionForce) = true) :
    exec (.editForce p tag lane a) s = .next ((s.took p rest).edit p tag lane a (State.force p a)) :=
  State.takeEdit_offers hoff h _

theorem exec_editSplice (h : (a.action == actionSplice) = true) :
    exec (.editSplice p tag lane a) s = .next ((s.took p rest).edit p tag lane a (State.splice p a)) :=
  State.takeEdit_offers hoff h _

/-- Whatever row takes an EDIT, `State.edit` is its effect. -/
theorem exec_edit {c : Instr} (hc : entryTaken c = some (p, .whole tag lane (.edit a))) :
    ∃ own, exec c s = .next ((s.took p rest).edit p tag lane a own) := by
  cases c
  case editVeto p' tag' lane' a' =>
    obtain ⟨h, he⟩ := Option.ite_none_right_eq_some.1 hc
    cases he
    exact ⟨_, exec_editVeto hoff h⟩
  case editRestore p' tag' lane' a' =>
    obtain ⟨h, he⟩ := Option.ite_none_right_eq_some.1 hc
    cases he
    exact ⟨_, exec_editRestore hoff h⟩
  case editForce p' tag' lane' a' =>
    obtain ⟨h, he⟩ := Option.ite_none_right_eq_some.1 hc
    cases he
    exact ⟨_, exec_editForce hoff h⟩
  case editSplice p' tag' lane' a' =>
    obtain ⟨h, he⟩ := Option.ite_none_right_eq_some.1 hc
    cases he
    exact ⟨_, exec_editSplice hoff h⟩
  all_goals cases hc

end

/-- The taking of an entry leaves what the checks of an EDIT read. -/
theorem State.took_checkEdit (s : State) (p : Port) (rest : List Entry) (lane : Byte) (a : EditArgs) :
    (s.took p rest).checkEdit p lane a = s.checkEdit p lane a := by
  cases p <;> rfl

theorem State.took_editNumber (s : State) (p : Port) (rest : List Entry) (lane : Byte) :
    (s.took p rest).editNumber lane = s.editNumber lane := by
  cases p <;> rfl

section
variable {s : State} {p : Port} {tag : Half} {lane : Byte} {a : EditArgs} {st : Status}
  {own : State → LaneId → EditResult}

/-- An EDIT that a common check refuses. -/
theorem State.edit_check_refused (h : s.checkEdit p lane a = .inl st) :
    s.edit p tag lane a own = s.editAnswered p tag lane st
      ([0x10#8, 0#8] ++ beBytes 4 (s.editNumber lane) ++ List.replicate 8 0#8) := by
  simp only [State.edit, h, State.refuseEdit_clearReservation]

end

section
variable {s : State} {p : Port} {tag : Half} {lane : Byte} {a : EditArgs} {rest : List Entry} {L : LaneId} {c : Instr}
  {own : State → LaneId → EditResult} (hexec : exec c s = .next ((s.took p rest).edit p tag lane a own))
  (hcheck : s.checkEdit p lane a = .inr L)
include hexec hcheck

/-- An EDIT that a check of its own action refuses. -/
theorem exec_edit_refused {st : Status} (h : own (s.took p rest) L = .refused st) :
    exec c s = .next ((s.took p rest).editAnswered p tag lane st
      ([0x10#8, 0#8] ++ beBytes 4 (s.lane L).edit ++ List.replicate 8 0#8)) := by
  rw [hexec, ← State.editNumber_of_checkEdit hcheck, ← State.took_editNumber s p rest]
  rw [← State.took_checkEdit s p rest] at hcheck
  simp only [State.edit, hcheck, h, State.refuseEdit_clearReservation]

/-- An EDIT carried out. -/
theorem exec_edit_done {t : State} {start length absorbed : Nat}
    (h : own (s.took p rest) L = .done t start length absorbed) :
    exec c s = .next (t.editAnswered p tag lane .done
      (editPayload a.action (t.lane L).edit start length absorbed)).grant := by
  rw [← State.took_checkEdit s p rest] at hcheck
  rw [hexec]
  simp only [State.edit, hcheck, h]
  rfl

end

/-- Settles O21: the first of the common checks that fails names the status. -/
theorem editChecksCommonToTheFourActions : Obligations.EditChecksCommonToTheFourActions := by
  intro c s p tag lane a rest hc hoff refused defined
  obtain ⟨own, hexec⟩ := exec_edit hoff hc
  have hrefused : ∀ st edit, s.checkEdit p lane a = .inl st → s.editNumber lane = edit → refused st edit := by
    intro st edit hcheck hedit
    rw [← State.took_checkEdit s p rest] at hcheck
    rw [← State.took_editNumber s p rest] at hedit
    exact hexec.trans (by rw [State.edit_check_refused hcheck, hedit]; rfl)
  refine ⟨fun h => hrefused _ _ (State.checkEdit_noLane h) (State.editNumber_noLane h), fun L hL => ⟨fun hd => ?_,
    fun hd hcl => ?_, fun hd ho hcond hres => ?_⟩⟩
  · exact hrefused _ _ (State.checkEdit_undefined hL hd) (State.editNumber_eq hL)
  · exact hrefused _ _ (State.checkEdit_closed hL hd hcl) ((State.editNumber_eq hL).trans (if_pos hcl))
  · exact hrefused _ _ (State.checkEdit_lost hL hd ho hcond hres) ((State.editNumber_eq hL).trans (if_neg ho))

/-! ### The marks of an edit (R75, R76) -/

/-- An edit raises the edit number and reaches blocks only. -/
theorem Lane.editMark_fields (l : Lane) (lo hi : Nat) :
    l.editMark lo hi = { l with edit := satInc l.edit, blocks := (l.editMark lo hi).blocks } :=
  l.raiseEdit.markWhere_fields lo hi _ _

/-- Two lane records of one ring and edit number take the same marks of an edit. -/
theorem Lane.SameRing.editMark {l m : Lane} (h : l.SameRing m) (he : m.edit = l.edit) (lo hi : Nat) :
    m.editMark lo hi = { m with edit := satInc l.edit, blocks := (l.editMark lo hi).blocks } := by
  have hraised : l.raiseEdit.SameRing m.raiseEdit := ⟨h.start, h.ring, h.fill, h.release, h.final, h.blocks⟩
  have hedit : m.raiseEdit.edit = l.raiseEdit.edit := by simp only [Lane.raiseEdit, he]
  have hblocks : (m.editMark lo hi).blocks = (l.editMark lo hi).blocks := by
    rw [Lane.editMark, Lane.editMark, Lane.markWhere_eq, Lane.markWhere_eq, hraised.ordinals, hedit]
    exact (hraised.foldl_markOne lo hi _ _ _).blocks
  rw [m.editMark_fields, hblocks, he]

/-- An edit's mark on each unreleased block that holds a position of `lo` to `hi`, by the block's own state. -/
theorem Lane.editMark_block {l : Lane} (lo hi : Nat) (hr : 0 < l.ring.length) (hb : l.blocks.length = l.ring.length)
    {j : Nat} (hj : j ∈ l.ordinals) :
    (l.editMark lo hi).block j =
      if lo ≤ l.lastOf j ∧ l.firstOf j ≤ hi then (l.block j).marked (satInc l.edit) else l.block j := by
  obtain ⟨-, -, hmarks⟩ := Lane.foldl_markOne lo hi (satInc l.edit) (fun _ => true) l.raiseEdit.ordinals
    (l := l.raiseEdit) hb hr l.raiseEdit.ordinals_pairwise
  refine (hmarks j hj).trans (if_congr ?_ rfl rfl)
  simp only [Lane.blockMeets, Bool.and_true, Bool.and_eq_true, decide_eq_true_eq]
  exact and_comm

theorem Block.marked_eq (b : Block) (n : Nat) : b.marked n =
    match b.state with
    | .rendered => { b with state := .dirty, mark := some n }
    | .dirty => { b with mark := some (b.mark.elim n fun x => min x n) }
    | .rendering => { b with touch := some (b.touch.elim n fun x => min x n) }
    | .free => b
    | .filling => b
    | .analysed => b := by
  have hlower : ∀ m, lowerMark n m = some (m.elim n fun x => min x n) := fun m => by cases m <;> rfl
  cases h : b.state <;> simp only [Block.marked, h, hlower]

/-- Settles O23: `Lane.editMark_block`, with `Block.marked` read off by the state of the block. -/
theorem editMarksTheBlocksItTouches : Obligations.EditMarksTheBlocksItTouches := by
  intro l lo hi hr hb n lower
  refine ⟨l.editMark_fields lo hi, fun j h1 h2 => ?_⟩
  rw [Lane.editMark_block lo hi hr hb ((l.mem_ordinals j).2 ⟨h1, h2⟩), Block.marked_eq]
  rfl

/-! ### The other port's reservation (R81) -/

section
variable (s : State) (p : Port) (L : LaneId) (lo hi : Nat)

@[simp] theorem State.recordEdited_lane (M : LaneId) : (s.recordEdited p L lo hi).lane M = s.lane M :=
  State.lane_modPort _ _ _ _
@[simp] theorem State.recordEdited_store : (s.recordEdited p L lo hi).store = s.store := State.modPort_store _ _ _
@[simp] theorem State.recordEdited_engine : (s.recordEdited p L lo hi).engine = s.engine := State.modPort_engine _ _ _
@[simp] theorem State.recordEdited_lines : (s.recordEdited p L lo hi).lines = s.lines := State.modPort_lines _ _ _
@[simp] theorem State.recordEdited_library : (s.recordEdited p L lo hi).library = s.library :=
  State.modPort_library _ _ _
@[simp] theorem State.recordEdited_tick : (s.recordEdited p L lo hi).tick = s.tick := State.modPort_tick _ _ _
@[simp] theorem State.recordEdited_port_same : (s.recordEdited p L lo hi).port p = s.port p := by cases p <;> rfl

theorem State.recordEdited_port_other : (s.recordEdited p L lo hi).port (otherPort p) =
    { s.port (otherPort p) with
      reservation := Reservation.kept (s.port (otherPort p)).reservation fun v => v.reached L (s.lane L) lo hi } := by
  cases p <;> rfl

end

/-! ### VETO and RESTORE (R68, R69) -/

section
variable (s : State) (p : Port) (L : LaneId) (r : Record) (d : Disp)

/-- The record takes the disposition, the edit number is raised, and the blocks the record touches are marked. -/
theorem State.dispose_lane : (s.dispose p L r d).lane L = { s.lane L with
    list := updateRecord r.start (fun x => { x with disp := d }) (s.lane L).list
    edit := satInc (s.lane L).edit
    blocks := ((s.lane L).editMark r.start r.last).blocks } := by
  have hring : (s.lane L).SameRing
      { s.lane L with list := updateRecord r.start (fun x => { x with disp := d }) (s.lane L).list } :=
    ⟨rfl, rfl, rfl, rfl, rfl, rfl⟩
  rw [State.dispose, State.recordEdited_lane, State.lane_modLane_same, State.setList, State.lane_modLane_same,
    hring.editMark rfl]

theorem State.dispose_other {M : LaneId} (h : M ≠ L) : (s.dispose p L r d).lane M = s.lane M := by
  rw [State.dispose, State.recordEdited_lane, State.lane_modLane_ne _ _ _ _ h, State.setList,
    State.lane_modLane_ne _ _ _ _ h]

theorem State.dispose_port_same : (s.dispose p L r d).port p = s.port p := by
  simp [State.dispose, State.setList]

theorem State.dispose_port_other : (s.dispose p L r d).port (otherPort p) = { s.port (otherPort p) with
    reservation := Reservation.kept (s.port (otherPort p)).reservation fun v =>
      v.reached L (s.lane L) r.start r.last } := by
  have hlane := s.dispose_lane p L r d
  rw [State.dispose, State.recordEdited_lane] at hlane
  rw [State.dispose, State.recordEdited_port_other, hlane, State.port_modLane, State.setList, State.port_modLane]
  rfl

@[simp] theorem State.dispose_store : (s.dispose p L r d).store = s.store := by simp [State.dispose]
@[simp] theorem State.dispose_engine : (s.dispose p L r d).engine = s.engine := by simp [State.dispose]
@[simp] theorem State.dispose_lines : (s.dispose p L r d).lines = s.lines := by simp [State.dispose]
@[simp] theorem State.dispose_library : (s.dispose p L r d).library = s.library := by simp [State.dispose]
@[simp] theorem State.dispose_tick : (s.dispose p L r d).tick = s.tick := by simp [State.dispose]

end

/-- What a VETO adds to a change of disposition, and a RESTORE does not. -/
def State.countIfVeto (s : State) (L : LaneId) (veto : Bool) : State := if veto then s.count L .veto else s

section
variable (s : State) (L : LaneId) (veto : Bool)

theorem State.countIfVeto_lane : (s.countIfVeto L veto).lane L = { s.lane L with
    counters := if veto then (s.lane L).counters.set 8 (satInc (s.lane L).counters[8]) else (s.lane L).counters } := by
  cases veto
  · rfl
  · exact s.count_lane L .veto

theorem State.countIfVeto_other {M : LaneId} (h : M ≠ L) : (s.countIfVeto L veto).lane M = s.lane M := by
  cases veto
  · rfl
  · exact State.lane_modLane_ne s L M (Lane.count · .veto) h

theorem State.countIfVeto_port (q : Port) : (s.countIfVeto L veto).port q = s.port q := by
  cases veto
  · rfl
  · exact State.port_modLane s L (Lane.count · .veto) q

@[simp] theorem State.countIfVeto_store : (s.countIfVeto L veto).store = s.store := by cases veto <;> rfl
@[simp] theorem State.countIfVeto_engine : (s.countIfVeto L veto).engine = s.engine := by cases veto <;> rfl
@[simp] theorem State.countIfVeto_lines : (s.countIfVeto L veto).lines = s.lines := by cases veto <;> rfl
@[simp] theorem State.countIfVeto_library : (s.countIfVeto L veto).library = s.library := by cases veto <;> rfl
@[simp] theorem State.countIfVeto_tick : (s.countIfVeto L veto).tick = s.tick := by cases veto <;> rfl

end

/-- VETO and RESTORE are one table, with the dispositions exchanged. -/
theorem exec_editVetoOrRestore {s : State} {p : Port} {tag : Half} {lane : Byte} {a : EditArgs} {rest : List Entry}
    {veto : Bool} (hoff : s.offers p (.whole tag lane (.edit a)) rest) (h : a.action = if veto then 1#8 else 2#8) :
    exec (if veto then .editVeto p tag lane a else .editRestore p tag lane a) s =
      .next ((s.took p rest).edit p tag lane a fun t L =>
        t.disposeAt p L a.pos.toNat (if veto then .vetoed else .applied) (·.countIfVeto L veto)) := by
  cases veto
  · exact exec_editRestore hoff (by rw [h]; decide)
  · exact exec_editVeto hoff (by rw [h]; decide)

section
variable {s : State} {p : Port} {L : LaneId} {start : Nat} {d : Disp} {changed : State → State} {r : Record}

theorem State.disposeAt_none (h : findRecord start (s.lane L).list = none) :
    s.disposeAt p L start d changed = .refused .norec := by
  simp only [State.disposeAt, h]

theorem State.disposeAt_opened (h : findRecord start (s.lane L).list = some r) (hr : r.state = .opened) :
    s.disposeAt p L start d changed = .refused .state := by
  simp only [State.disposeAt, h, hr]

theorem State.disposeAt_frozen (h : findRecord start (s.lane L).list = some r) (hr : r.state = .frozen) :
    s.disposeAt p L start d changed = .refused .tooLate := by
  simp only [State.disposeAt, h, hr]

theorem State.disposeAt_same (h : findRecord start (s.lane L).list = some r) (hr : r.state = .live) (hd : r.disp = d) :
    s.disposeAt p L start d changed = .done s 0 0 0 := by
  simp only [State.disposeAt, h, hr, hd, if_true]

theorem State.disposeAt_changed (h : findRecord start (s.lane L).list = some r) (hr : r.state = .live)
    (hd : r.disp ≠ d) : s.disposeAt p L start d changed = .done (changed (s.dispose p L r d)) 0 0 0 := by
  simp only [State.disposeAt, h, hr, hd, if_false]

end

/-- Settles O22: the table of `State.disposeAt`, and for a change the frames of `State.dispose` and of the answer. -/
theorem vetoAndRestoreChangeTheDisposition : Obligations.VetoAndRestoreChangeTheDisposition := by
  intro s p tag lane a rest L veto haction hoff hL hopen hcond c wanted l unreserved refused n found
  have hexec := exec_editVetoOrRestore hoff haction
  set T := s.took p rest
  have hlane : ∀ M, T.lane M = s.lane M := s.took_lane p rest
  have hdefined : editDefined a := by
    cases veto
    · exact .inr (.inl haction)
    · exact .inl haction
  have hcheck : s.checkEdit p lane a = .inr L := State.checkEdit_passes hL hdefined hopen hcond
  have hrefused : ∀ st, T.disposeAt p L a.pos.toNat wanted (·.countIfVeto L veto) = .refused st → refused st :=
    fun st h => exec_edit_refused hexec hcheck h
  have hfound : findRecord a.pos.toNat (T.lane L).list = found := by
    rw [hlane]
    rfl
  refine ⟨fun hf => ?_, fun r hf => ⟨fun hr => ?_, fun hr => ?_, fun hr hd => ?_, fun hr hd => ?_⟩⟩
  · exact hrefused _ (State.disposeAt_none (hfound.trans hf))
  · exact hrefused _ (State.disposeAt_opened (hfound.trans hf) hr)
  · exact hrefused _ (State.disposeAt_frozen (hfound.trans hf) hr)
  · refine (exec_edit_done hexec hcheck (State.disposeAt_same (hfound.trans hf) hr hd)).trans ?_
    rw [editPayload_zeros, hlane]
    rfl
  · have hdone := exec_edit_done hexec hcheck (State.disposeAt_changed (hfound.trans hf) hr hd)
    rw [editPayload_zeros] at hdone
    have hchanged : ((T.dispose p L r wanted).countIfVeto L veto).lane L = { l with
        list := updateRecord r.start (fun x => { x with disp := wanted }) l.list
        edit := n
        blocks := (l.editMark r.start r.last).blocks
        counters := if veto then l.counters.set 8 (satInc l.counters[8]) else l.counters } := by
      rw [State.countIfVeto_lane, State.dispose_lane, hlane]
      rfl
    refine ⟨_, hdone, ?_, fun M hM => ?_, ?_, ?_, ?_, ?_, ?_, ?_, ?_⟩
    · rw [State.editAnswered_lane]
      exact hchanged
    · rw [State.editAnswered_lane, State.countIfVeto_other _ _ _ hM, State.dispose_other _ _ _ _ _ hM, hlane]
    · rw [hchanged, State.editAnswered_port_same, State.countIfVeto_port, State.dispose_port_same, State.took_port_same]
    · rw [State.editAnswered_port_other, State.countIfVeto_port, State.dispose_port_other, hlane, State.took_port_other]
      rfl
    all_goals simp

end Sys2Proof.Machine

/-! PROOF. FORCE and SPLICE (R70 to R73): the overlap and pool checks, and the record added. The statements O24 and O25. -/

namespace Sys2Proof.Machine
open Sys2Proof

/-- The taking of an entry leaves what the pool's check reads. -/
theorem State.took_canTake (s : State) (p : Port) (rest : List Entry) (L : LaneId) (rs : List Record) :
    ((s.took p rest).setList L rs).canTake L = (s.setList L rs).canTake L := by
  cases p <;> rfl

/-! ### The overlap check (R70) -/

/-- A record at or beside the span hinders it unless it lies inside it, LIVE and APPLIED. -/
theorem overlapOk_false_iff (rs : List Record) (lo hi : Nat) : overlapOk rs lo hi = false ↔
    ∃ r ∈ rs, r.start ≤ hi + 1 ∧ lo - 1 ≤ r.last ∧
      ¬((decide (lo ≤ r.start) && decide (r.last ≤ hi)) = true ∧ r.state = .live ∧ r.disp = .applied) := by
  have hone : ∀ r : Record, (!r.meets (lo - 1) (hi + 1) || (r.inside lo hi && r.mergeable)) = false ↔
      r.start ≤ hi + 1 ∧ lo - 1 ≤ r.last ∧ ¬(r.inside lo hi = true ∧ r.state = .live ∧ r.disp = .applied) := by
    intro r
    rw [Bool.or_eq_false_iff, Bool.not_eq_false', ← r.mergeable_iff, ← Bool.and_eq_true, Bool.not_eq_true, ← and_assoc]
    exact and_congr_left fun _ => by simp [Record.meets]
  simp only [overlapOk, List.all_eq_false, Bool.not_eq_true, hone]
  rfl

/-! ### The record added (R71, R73) -/

section
variable (s : State) (p : Port) (L : LaneId) (kind : Kind) (lo hi : Nat)

/-- The part with the records inside the span freed and the new one in the list, before the pool is assessed. -/
def State.withRecord : State :=
  (s.setList L (listWithout (s.lane L).list lo hi)).setList L
    (insertRecord (s.editRecord p L kind lo hi) (listWithout (s.lane L).list lo hi))

theorem State.withRecord_lane : (s.withRecord p L kind lo hi).lane L =
    { s.lane L with list := insertRecord (s.editRecord p L kind lo hi) (listWithout (s.lane L).list lo hi) } := by
  simp [State.withRecord, State.setList]

theorem State.withRecord_other {M : LaneId} (h : M ≠ L) : (s.withRecord p L kind lo hi).lane M = s.lane M := by
  simp [State.withRecord, State.setList, State.lane_modLane_ne _ _ _ _ h]

theorem State.withRecord_port (q : Port) : (s.withRecord p L kind lo hi).port q = s.port q := by
  simp [State.withRecord, State.setList]

/-- The part after a FORCE or SPLICE that its checks let pass, before the answer. -/
def State.recordAdded (c : Ctr) : State :=
  (((s.withRecord p L kind lo hi).assess.modLane L (Lane.editMark · lo hi)).count L c).recordEdited p L lo hi

variable (c : Ctr)

theorem State.addRecord_overlap (h : overlapOk (s.lane L).list lo hi = false) :
    s.addRecord p L kind c lo hi = .refused .overlap := by
  simp only [State.addRecord, h, Bool.false_eq_true, if_false]

theorem State.addRecord_nospace (h : overlapOk (s.lane L).list lo hi = true)
    (hc : (s.setList L (listWithout (s.lane L).list lo hi)).canTake L = false) :
    s.addRecord p L kind c lo hi = .refused .nospace := by
  simp only [State.addRecord, h, hc, Bool.false_eq_true, if_true, if_false]

theorem State.addRecord_done (h : overlapOk (s.lane L).list lo hi = true)
    (hc : (s.setList L (listWithout (s.lane L).list lo hi)).canTake L = true) :
    s.addRecord p L kind c lo hi = .done (s.recordAdded p L kind lo hi c) lo (hi + 1 - lo)
      (absorbedBy (s.lane L).list lo hi).length := by
  simp only [State.addRecord, h, hc, if_true]
  rfl

/-- The lane takes the record, the marks and the count; of its other fields an assessment of the pool may change the two
flags. -/
theorem State.recordAdded_lane : (s.recordAdded p L kind lo hi c).lane L = { s.lane L with
    list := insertRecord (s.editRecord p L kind lo hi) (listWithout (s.lane L).list lo hi)
    edit := satInc (s.lane L).edit
    blocks := ((s.lane L).editMark lo hi).blocks
    counters := ((s.lane L).count c).counters
    low := ((s.recordAdded p L kind lo hi c).lane L).low
    armed := ((s.recordAdded p L kind lo hi c).lane L).armed } := by
  have hmade := (s.withRecord p L kind lo hi).assess_sameButPoolFlags L
  unfold Lane.sameButPoolFlags at hmade
  rw [State.withRecord_lane] at hmade
  unfold State.recordAdded
  generalize (s.withRecord p L kind lo hi).assess = made at hmade ⊢
  have hring : (s.lane L).SameRing (made.lane L) := by
    rw [hmade]
    exact ⟨rfl, rfl, rfl, rfl, rfl, rfl⟩
  have hedit : (made.lane L).edit = (s.lane L).edit := by rw [hmade]
  rw [State.recordEdited_lane, State.count_lane, State.lane_modLane_same, hring.editMark hedit, hmade]
  rfl

theorem State.recordAdded_other {M : LaneId} (h : M ≠ L) :
    (s.lane M).sameButPoolFlags ((s.recordAdded p L kind lo hi c).lane M) := by
  have hmade := (s.withRecord p L kind lo hi).assess_sameButPoolFlags M
  rw [State.withRecord_other _ _ _ _ _ _ h] at hmade
  rw [State.recordAdded, State.recordEdited_lane, State.count, State.lane_modLane_ne _ _ _ _ h,
    State.lane_modLane_ne _ _ _ _ h]
  exact hmade

theorem State.recordAdded_port_same : (s.port p).SameButEntries ((s.recordAdded p L kind lo hi c).port p) := by
  obtain ⟨hport, -⟩ := (s.withRecord p L kind lo hi).assess_port p
  rw [State.withRecord_port] at hport
  rwa [State.recordAdded, State.recordEdited_port_same, State.count, State.port_modLane, State.port_modLane]

/-- The other port loses its reservation where the record touches the block reserved (R81). -/
theorem State.recordAdded_port_other : ((s.recordAdded p L kind lo hi c).port (otherPort p)).reservation =
    Reservation.kept (s.port (otherPort p)).reservation fun v => v.reached L (s.lane L) lo hi := by
  obtain ⟨hport, -⟩ := (s.withRecord p L kind lo hi).assess_port (otherPort p)
  rw [State.withRecord_port] at hport
  have hlane := s.recordAdded_lane p L kind lo hi c
  rw [State.recordAdded, State.recordEdited_lane] at hlane
  rw [State.recordAdded, State.recordEdited_port_other, hlane, State.count, State.port_modLane, State.port_modLane,
    hport]
  rfl

theorem State.recordAdded_rest : (s.recordAdded p L kind lo hi c).store = s.store ∧
    (s.recordAdded p L kind lo hi c).engine = s.engine ∧ (s.recordAdded p L kind lo hi c).lines = s.lines ∧
    (s.recordAdded p L kind lo hi c).library = s.library ∧ (s.recordAdded p L kind lo hi c).tick = s.tick := by
  obtain ⟨hstore, hengine, htick, hlines, hlibrary, -, -⟩ := (s.withRecord p L kind lo hi).assess_rest
  simp only [State.recordAdded, State.recordEdited_store, State.recordEdited_engine, State.recordEdited_lines,
    State.recordEdited_library, State.recordEdited_tick, State.count_store, State.count_engine, State.count_lines,
    State.count_library, State.count_tick, State.modLane_store, State.modLane_engine, State.modLane_lines,
    State.modLane_library, State.modLane_tick]
  exact ⟨hstore, hengine, hlines, hlibrary, htick⟩

end

/-! ### What FORCE and SPLICE share -/

/-- `t` is the part `s` after port `p` has added record `r` over `lo` to `hi` of lane `L`, counted in `c` and answered with
`answer` (R71, R73, R75, R81). -/
def State.TakesRecord (s : State) (p : Port) (L : LaneId) (c : Ctr) (lo hi : Nat) (r : Record) (answer : Response)
    (t : State) : Prop :=
  (t.lane L).list = insertRecord r (listWithout (s.lane L).list lo hi) ∧
  (t.lane L).edit = satInc (s.lane L).edit ∧
  (t.lane L).blocks = ((s.lane L).editMark lo hi).blocks ∧
  (t.lane L).counters = ((s.lane L).count c).counters ∧
  (∀ M, M ≠ L → (s.lane M).sameButPoolFlags (t.lane M)) ∧
  (t.port p).reservation = none ∧
  (t.port p).answers = (s.port p).answers ++ [answer] ∧
  (t.port (otherPort p)).reservation =
    Reservation.kept (s.port (otherPort p)).reservation (fun v => v.reached L (s.lane L) lo hi) ∧
  t.store = s.store ∧ t.engine = s.engine ∧ t.lines = s.lines ∧ t.library = s.library ∧ t.tick = s.tick

theorem State.recordAdded_takesRecord (s : State) (p : Port) (tag : Half) (lane : Byte) (rest : List Entry) (L : LaneId)
    (kind : Kind) (lo hi : Nat) (c : Ctr) (b : List Byte) :
    s.TakesRecord p L c lo hi ((s.took p rest).editRecord p L kind lo hi)
      { tag := tag, lane := lane, status := .done, payload := b, ofParked := false }
      (((s.took p rest).recordAdded p L kind lo hi c).editAnswered p tag lane .done b) := by
  have hlane := (s.took p rest).recordAdded_lane p L kind lo hi c
  have hport := (s.took p rest).recordAdded_port_same p L kind lo hi c
  have hother := (s.took p rest).recordAdded_port_other p L kind lo hi c
  obtain ⟨hstore, hengine, hlines, hlibrary, htick⟩ := (s.took p rest).recordAdded_rest p L kind lo hi c
  have hframe := fun M (hM : M ≠ L) => (s.took p rest).recordAdded_other p L kind lo hi c hM
  simp only [State.took_lane] at hlane hframe hother
  generalize (s.took p rest).recordAdded p L kind lo hi c = u at *
  unfold PortRec.SameButEntries at hport
  refine ⟨?_, ?_, ?_, ?_, fun M hM => ?_, ?_, ?_, ?_, ?_, ?_, ?_, ?_, ?_⟩
  · rw [State.editAnswered_lane, hlane]
  · rw [State.editAnswered_lane, hlane]
  · rw [State.editAnswered_lane, hlane]
  · rw [State.editAnswered_lane, hlane]
  · rw [State.editAnswered_lane]
    exact hframe M hM
  · rw [State.editAnswered_port_same]
  · rw [State.editAnswered_port_same, hport, State.took_port_same]
  · rw [State.editAnswered_port_other, hother, State.took_port_other]
  · rw [State.editAnswered_store, hstore, State.took_store]
  · rw [State.editAnswered_engine, hengine, State.took_engine]
  · rw [State.editAnswered_lines, hlines, State.took_lines]
  · rw [State.editAnswered_library, hlibrary, State.took_library]
  · rw [State.editAnswered_tick, htick, State.took_tick]

section
variable {s : State} {p : Port} {tag : Half} {lane : Byte} {a : EditArgs} {rest : List Entry} {L : LaneId} {i : Instr}
  {own : State → LaneId → EditResult} {kind : Kind} {c : Ctr} {lo hi : Nat}
  (hexec : exec i s = .next ((s.took p rest).edit p tag lane a own)) (hcheck : s.checkEdit p lane a = .inr L)
  (hown : own (s.took p rest) L = (s.took p rest).addRecord p L kind c lo hi)
include hexec hcheck hown

theorem exec_addRecord_overlap (h : overlapOk (s.lane L).list lo hi = false) :
    exec i s = .next ((s.took p rest).editAnswered p tag lane .overlap
      ([0x10#8, 0#8] ++ beBytes 4 (s.lane L).edit ++ List.replicate 8 0#8)) :=
  exec_edit_refused hexec hcheck (hown.trans (State.addRecord_overlap _ _ _ _ _ _ _ (by rwa [State.took_lane])))

theorem exec_addRecord_nospace (h : overlapOk (s.lane L).list lo hi = true)
    (hc : (s.setList L (listWithout (s.lane L).list lo hi)).canTake L = false) :
    exec i s = .next ((s.took p rest).editAnswered p tag lane .nospace
      ([0x10#8, 0#8] ++ beBytes 4 (s.lane L).edit ++ List.replicate 8 0#8)) := by
  rw [← State.took_lane s p rest L] at h hc
  rw [← State.took_canTake s p rest] at hc
  exact exec_edit_refused hexec hcheck (hown.trans (State.addRecord_nospace _ _ _ _ _ _ _ h hc))

theorem exec_addRecord_done (h : overlapOk (s.lane L).list lo hi = true)
    (hc : (s.setList L (listWithout (s.lane L).list lo hi)).canTake L = true) :
    ∃ t : State, exec i s = .next t.grant ∧
      s.TakesRecord p L c lo hi ((s.took p rest).editRecord p L kind lo hi)
        { tag := tag
          lane := lane
          status := .done
          payload := editPayload a.action (satInc (s.lane L).edit) lo (hi + 1 - lo)
            (absorbedBy (s.lane L).list lo hi).length
          ofParked := false } t := by
  have hlane := (s.took p rest).recordAdded_lane p L kind lo hi c
  rw [← State.took_lane s p rest L] at h hc
  rw [← State.took_canTake s p rest] at hc
  refine ⟨_, exec_edit_done hexec hcheck (hown.trans (State.addRecord_done _ _ _ _ _ _ _ h hc)), ?_⟩
  rw [hlane, State.took_lane]
  exact s.recordAdded_takesRecord p tag lane rest L kind lo hi c _

end

/-- The record of an edit, with its anchors `before` and `after` (R49, R71, R73). -/
theorem State.editRecord_eq {s : State} {p : Port} {L : LaneId} {kind : Kind} {lo hi len : Nat}
    (hlen : hi + 1 - lo = len) {before after : Option Int} (hb : s.editAnchor L (lo - 1) = before)
    (ha : s.editAnchor L (hi + 1) = after) :
    s.editRecord p L kind lo hi =
      { start := lo
        length := len
        kind := kind
        origin := if p = .A then .portA else .portB
        state := .live
        disp := .applied
        ratio := 0
        before := before
        after := after } := by
  rw [State.editRecord, hlen, hb, ha]
  cases p <;> rfl

/-- The anchor of a position behind the analysis point is read. -/
theorem State.editAnchor_analysed {s : State} {L : LaneId} {pos : Nat} (h : pos < (s.lane L).analysis) :
    s.editAnchor L pos = some (s.anchorAt L pos) := if_pos h

theorem Lane.unreleasedBefore_iff (l : Lane) (lo : Nat) :
    l.unreleasedBefore lo = true ↔ 0 < lo ∧ l.release ≤ lo - 1 := by
  simp [Lane.unreleasedBefore]

theorem Lane.unreleasedBefore_false_iff (l : Lane) (lo : Nat) :
    l.unreleasedBefore lo = false ↔ lo = 0 ∨ lo - 1 < l.release := by
  rw [← Bool.not_eq_true, Lane.unreleasedBefore_iff]
  omega

/-! ### FORCE (R70, R71) -/

section
variable {s : State} {p : Port} {a : EditArgs} {L : LaneId}

theorem State.force_length
    (h : a.length.toNat = 0 ∨ 1024 < a.length.toNat ∨ 4294967296 < a.pos.toNat + a.length.toNat) :
    State.force p a s L = .refused .range := if_pos h

variable (hlen : ¬(a.length.toNat = 0 ∨ 1024 < a.length.toNat ∨ 4294967296 < a.pos.toNat + a.length.toNat))
include hlen

theorem State.force_released (h : (s.lane L).unreleasedBefore a.pos.toNat = false) :
    State.force p a s L = .refused .tooLate :=
  (if_neg hlen).trans (if_pos h)

theorem State.force_ahead (hu : (s.lane L).unreleasedBefore a.pos.toNat = true)
    (h : (s.lane L).analysis ≤ a.pos.toNat + a.length.toNat) : State.force p a s L = .refused .range :=
  (if_neg hlen).trans ((if_neg (by simp [hu])).trans (if_pos h))

theorem State.force_adds (hu : (s.lane L).unreleasedBefore a.pos.toNat = true)
    (h : a.pos.toNat + a.length.toNat < (s.lane L).analysis) :
    State.force p a s L =
      s.addRecord p L .forced .forced a.pos.toNat (a.pos.toNat + a.length.toNat - 1) :=
  (if_neg hlen).trans ((if_neg (by simp [hu])).trans (if_neg (Nat.not_le.2 h)))

end

/-- Settles O24: the checks of `State.force` in their order, and the record added (`exec_addRecord_done`). -/
theorem forceAddsARecord : Obligations.ForceAddsARecord := by
  intro s p tag lane a rest L haction hoff hL hopen hcond l lo len hi refused badLength inside overlap kept
  have hexec := exec_editForce hoff (by rw [haction]; decide)
  have hcheck : s.checkEdit p lane a = .inr L :=
    State.checkEdit_passes hL (.inr (.inr (.inl haction))) hopen hcond
  have hrefused : ∀ st, State.force p a (s.took p rest) L = .refused st → refused st :=
    fun st h => exec_edit_refused hexec hcheck h
  have hlane : (s.took p rest).lane L = l := s.took_lane p rest L
  have hoverlap : overlapOk l.list lo hi = false ↔ overlap := overlapOk_false_iff _ _ _
  have hunreleased : 0 < lo → l.release ≤ lo - 1 → ((s.took p rest).lane L).unreleasedBefore lo = true := by
    intro h1 h2
    rw [hlane]
    exact (l.unreleasedBefore_iff lo).2 ⟨h1, h2⟩
  have hend : ¬ badLength → hi + 1 = lo + len := by
    intro hb
    simp only [badLength, not_or] at hb
    omega
  have hadds : ¬ badLength → 0 < lo → l.release ≤ lo - 1 → hi + 1 < l.analysis →
      State.force p a (s.took p rest) L = (s.took p rest).addRecord p L .forced .forced lo hi := fun hb h1 h2 h3 =>
    State.force_adds hb (hunreleased h1 h2) (by rw [hlane]; exact hend hb ▸ h3)
  refine ⟨fun hb => hrefused _ (State.force_length hb), fun hb h => hrefused _ (State.force_released hb ?_),
    fun hb h1 h2 h3 => hrefused _ (State.force_ahead hb (hunreleased h1 h2) ?_),
    fun hb h1 h2 h3 ho => exec_addRecord_overlap hexec hcheck (hadds hb h1 h2 h3) (hoverlap.2 ho),
    fun hb h1 h2 h3 ho => ?_⟩
  · rw [hlane, Lane.unreleasedBefore_false_iff]
    exact h
  · rw [hlane]
    exact hend hb ▸ h3
  · rw [← hoverlap, Bool.not_eq_false] at ho
    have hlen : hi + 1 - lo = len := by rw [hend hb, Nat.add_sub_cancel_left]
    have hrecord := State.editRecord_eq (p := p) (kind := .forced) hlen
      (State.editAnchor_analysed (s := s.took p rest) (L := L) (by rw [hlane]; omega))
      (State.editAnchor_analysed (by rw [hlane]; exact h3))
    refine ⟨fun hc => exec_addRecord_nospace hexec hcheck (hadds hb h1 h2 h3) ho hc, fun hc => ?_⟩
    obtain ⟨t, ht, htakes⟩ := exec_addRecord_done hexec hcheck (hadds hb h1 h2 h3) ho hc
    rw [hrecord, haction, hlen] at htakes
    exact ⟨t, ht, htakes⟩

/-! ### SPLICE (R72, R73) -/

section
variable {s : State} {p : Port} {a : EditArgs} {L : LaneId} {ls : Nat} (hls : (s.lane L).activeProfile.ls = ls)
include hls

theorem State.splice_outside (h : a.pos.toNat < ls ∨ 4294967295 < a.pos.toNat + ls) :
    State.splice p a s L = .refused .range := by
  subst hls
  exact if_pos h

variable (hin : ¬(a.pos.toNat < ls ∨ 4294967295 < a.pos.toNat + ls))
include hin

theorem State.splice_released (h : (s.lane L).unreleasedBefore (a.pos.toNat - ls) = false) :
    State.splice p a s L = .refused .tooLate := by
  subst hls
  exact (if_neg hin).trans (if_pos h)

theorem State.splice_ahead (hu : (s.lane L).unreleasedBefore (a.pos.toNat - ls) = true)
    (h : (s.lane L).analysis + 16383 < a.pos.toNat + ls) : State.splice p a s L = .refused .range := by
  subst hls
  exact (if_neg hin).trans ((if_neg (by simp [hu])).trans (if_pos h))

theorem State.splice_adds (hu : (s.lane L).unreleasedBefore (a.pos.toNat - ls) = true)
    (h : a.pos.toNat + ls ≤ (s.lane L).analysis + 16383) :
    State.splice p a s L = s.addRecord p L .splice .splice (a.pos.toNat - ls) (a.pos.toNat + ls) := by
  subst hls
  exact (if_neg hin).trans ((if_neg (by simp [hu])).trans (if_neg (Nat.not_lt.2 h)))

end

/-- Settles O25: the checks of `State.splice` in their order, and the record added (`exec_addRecord_done`), its anchors as
`State.editAnchor` takes them. -/
theorem spliceAddsARecord : Obligations.SpliceAddsARecord := by
  intro s p tag lane a rest L w haction hoff hL hopen hactive hcond l centre lo hi refused outside inside overlap kept
    anchor
  have hexec := exec_editSplice hoff (by rw [haction]; decide)
  have hcheck : s.checkEdit p lane a = .inr L :=
    State.checkEdit_passes hL (.inr (.inr (.inr haction))) hopen hcond
  have hrefused : ∀ st, State.splice p a (s.took p rest) L = .refused st → refused st :=
    fun st h => exec_edit_refused hexec hcheck h
  have hlane : (s.took p rest).lane L = l := s.took_lane p rest L
  have hls : ((s.took p rest).lane L).activeProfile.ls = w.profile.ls := by
    rw [State.took_lane, Lane.activeProfile, hactive]
    rfl
  have hoverlap : overlapOk l.list lo hi = false ↔ overlap := overlapOk_false_iff _ _ _
  have hunreleased : 0 < lo → l.release ≤ lo - 1 → ((s.took p rest).lane L).unreleasedBefore lo = true := by
    intro h1 h2
    rw [hlane]
    exact (l.unreleasedBefore_iff lo).2 ⟨h1, h2⟩
  have hadds : ¬ outside → 0 < lo → l.release ≤ lo - 1 → hi ≤ l.analysis + 16383 →
      State.splice p a (s.took p rest) L = (s.took p rest).addRecord p L .splice .splice lo hi := fun hb h1 h2 h3 =>
    State.splice_adds hls hb (hunreleased h1 h2) (by rw [hlane]; exact h3)
  refine ⟨fun hb => hrefused _ (State.splice_outside hls hb), fun hb h => hrefused _ (State.splice_released hls hb ?_),
    fun hb h1 h2 h3 => hrefused _ (State.splice_ahead hls hb (hunreleased h1 h2) ?_),
    fun hb h1 h2 h3 ho => exec_addRecord_overlap hexec hcheck (hadds hb h1 h2 h3) (hoverlap.2 ho),
    fun hb h1 h2 h3 ho => ?_⟩
  · rw [hlane, Lane.unreleasedBefore_false_iff]
    exact h
  · rw [hlane]
    exact h3
  · rw [← hoverlap, Bool.not_eq_false] at ho
    have hlen : hi + 1 - lo = 2 * w.profile.ls + 1 := by
      simp only [outside, not_or] at hb
      omega
    have hanchor : ∀ pos, (s.took p rest).editAnchor L pos = anchor pos := by
      intro pos
      rw [State.editAnchor, hlane]
    have hrecord := State.editRecord_eq (p := p) (kind := .splice) hlen (hanchor (lo - 1)) (hanchor (hi + 1))
    refine ⟨fun hc => exec_addRecord_nospace hexec hcheck (hadds hb h1 h2 h3) ho hc, fun hc => ?_⟩
    obtain ⟨t, ht, htakes⟩ := exec_addRecord_done hexec hcheck (hadds hb h1 h2 h3) ho hc
    rw [hrecord, haction, hlen] at htakes
    exact ⟨t, ht, htakes⟩

end Sys2Proof.Machine

/-! PROOF. The grant of the Render Engine (R91, R92) and the render it starts (R93): which block of a lane is
taken, which lane is served, and the state a grant leaves. The statement O43. -/

namespace Sys2Proof.Machine
open Sys2Proof

/-! ### The block a lane offers to the engine (R92) -/

/-- The ring is searched from the oldest unreleased block on. -/
theorem Lane.find?_ordinals_iff (l : Lane) (p : Nat → Bool) (j : Nat) : l.ordinals.find? p = some j ↔
    j ∈ l.ordinals ∧ p j = true ∧ ∀ i ∈ l.ordinals, p i = true → j ≤ i := by
  simp only [Lane.mem_ordinals]
  rw [Lane.ordinals, List.find?_map, Option.map_eq_some_iff]
  simp only [List.find?_range_eq_some, List.mem_range, Lane.ringSize, Function.comp_apply]
  constructor
  · rintro ⟨k, ⟨hp, hk, hmin⟩, rfl⟩
    refine ⟨by omega, hp, fun i hi hpi => Nat.le_of_not_lt fun hlt => ?_⟩
    have hnot := hmin (i - l.oldest) (by omega)
    rw [Nat.add_sub_cancel' hi.1, hpi] at hnot
    exact absurd hnot (by decide)
  · rintro ⟨hj, hp, hmin⟩
    refine ⟨j - l.oldest, ⟨by rwa [Nat.add_sub_cancel' hj.1], by omega, fun i hi => ?_⟩, by omega⟩
    rw [Bool.not_eq_true', ← Bool.not_eq_true]
    intro hpi
    have := hmin (l.oldest + i) (by omega) hpi
    omega

theorem Lane.nextBlock_eq (l : Lane) : l.nextBlock =
    (l.ordinals.find? fun j => l.startable j && (l.block j).state == .dirty).or (l.ordinals.find? l.startable) := by
  rw [Lane.nextBlock, List.find?_filter, List.head?_filter]
  simp only [Bool.decide_and, Bool.decide_eq_true]
  cases l.ordinals.find? fun j => l.startable j && (l.block j).state == .dirty <;> rfl

theorem Lane.nextBlock_eq_none_iff (l : Lane) : l.nextBlock = none ↔ ∀ i ∈ l.ordinals, l.startable i = false := by
  simp only [Lane.nextBlock_eq, Option.or_eq_none_iff, List.find?_eq_none, Bool.and_eq_true, Bool.not_eq_true]
  exact ⟨fun h => h.2, fun h => ⟨fun i hi hs => absurd hs.1 (by simp [h i hi]), h⟩⟩

/-- The oldest startable DIRTY block, or with none the oldest startable block. -/
theorem Lane.nextBlock_eq_some_iff (l : Lane) (j : Nat) : l.nextBlock = some j ↔
    j ∈ l.ordinals ∧
      ((l.startable j = true ∧ (l.block j).state = .dirty) ∧
          (∀ i ∈ l.ordinals, l.startable i = true ∧ (l.block i).state = .dirty → j ≤ i) ∨
        (∀ i ∈ l.ordinals, ¬ (l.startable i = true ∧ (l.block i).state = .dirty)) ∧
          l.startable j = true ∧ ∀ i ∈ l.ordinals, l.startable i = true → j ≤ i) := by
  simp only [Lane.nextBlock_eq, Option.or_eq_some_iff, Lane.find?_ordinals_iff, List.find?_eq_none, Bool.and_eq_true,
    beq_iff_eq]
  tauto

/-! ### The lane served (R91) -/

theorem lanesAfter_eq (x : LaneId) : lanesAfter x = (List.finRange 6).map (x + 1 + ·) := by
  revert x
  decide

/-- The lanes are asked in turn from the one after the grant pointer. -/
theorem State.nextGrant_eq (s : State) : s.nextGrant = Fin.findSome? fun n : Fin 6 =>
    (s.lane (s.engine.pointer + 1 + n)).nextBlock.map fun j => (s.engine.pointer + 1 + n, j) := by
  rw [Fin.findSome?_eq_findSome?_finRange, State.nextGrant, lanesAfter_eq, List.findSome?_map]
  rfl

theorem State.nextGrant_first {s : State} {n : Fin 6} {j : Nat}
    (hbefore : ∀ m : Fin 6, m < n → (s.lane (s.engine.pointer + 1 + m)).nextBlock = none)
    (hj : (s.lane (s.engine.pointer + 1 + n)).nextBlock = some j) :
    s.nextGrant = some (s.engine.pointer + 1 + n, j) := by
  rw [State.nextGrant_eq, Fin.findSome?_eq_some_iff]
  exact ⟨n, by rw [hj]; rfl, fun m hm => by rw [hbefore m hm]; rfl⟩

theorem State.nextGrant_eq_none_iff (s : State) : s.nextGrant = none ↔ ∀ L, (s.lane L).nextBlock = none := by
  simp only [State.nextGrant_eq, Fin.findSome?_eq_none_iff, Option.map_eq_none_iff]
  refine ⟨fun h L => ?_, fun h n => h _⟩
  have hL := h (L - (s.engine.pointer + 1))
  rwa [add_sub_cancel] at hL

/-! ### RENDER_START -/

theorem State.grant_starts {s : State} {L : LaneId} {j : Nat} (hidle : s.engine.inFlight = none)
    (hnext : s.nextGrant = some (L, j)) : s.grant = s.startRender L j := by
  unfold State.grant
  rw [hidle, hnext]

theorem exec_renderStart_due {s : State} (hidle : s.engine.inFlight = none) (hnext : s.nextGrant ≠ none) :
    exec .renderStart s = .next s.event.grant :=
  State.takePlace_due (by simp [State.grantDue, hidle, Option.isSome_iff_ne_none, hnext]) State.grant

theorem exec_renderStart_none {s : State} (hnext : s.nextGrant = none) : exec .renderStart s = .next s :=
  State.takePlace_not_due (by simp [State.grantDue, hnext]) State.grant

/-- The snapshot's records, with the positions of the block written out. -/
theorem Lane.snapRecords_eq (l : Lane) (j : Nat) : l.snapRecords j =
    (l.list.filter fun r =>
      r.disp == .applied && decide (r.start ≤ l.lastOf j) && decide (l.firstOf j ≤ r.last)).map fun r =>
        { start := r.start, length := r.length, before := r.before.getD 0, after := r.after.getD 0 } := by
  simp only [Lane.snapRecords, Record.meets, Bool.and_assoc]

/-- Settles O43: the lane by `State.nextGrant_first`, its block by `Lane.nextBlock_eq_some_iff`, and the state by
`State.startRender`. -/
theorem renderStartGrantsAndTakesTheSnapshot : Obligations.RenderStartGrantsAndTakesTheSnapshot := by
  refine ⟨?_, fun s => ⟨?_, ?_, ?_⟩⟩
  · intro s n j hidle L l within oldestOf startableDirty hbefore hblock b c
    have hj : l.nextBlock = some j := by
      rw [Lane.nextBlock_eq_some_iff]
      simp only [Lane.mem_ordinals]
      rcases hblock with ⟨hin, hdirty, hmin⟩ | ⟨hnone, hin, hstart, hmin⟩
      · exact ⟨hin, .inl ⟨hdirty, hmin⟩⟩
      · exact ⟨hin, .inr ⟨hnone, hstart, hmin⟩⟩
    have hnext : s.nextGrant = some (L, j) :=
      State.nextGrant_first (fun m hm => (Lane.nextBlock_eq_none_iff _).2 fun i hi =>
        hbefore m hm i ((Lane.mem_ordinals _ i).1 hi)) hj
    rw [exec_renderStart_due hidle (by simp [hnext]), State.grant_starts (s := s.event) hidle hnext, State.startRender,
      State.renderOf, Lane.snapRecords_eq]
    rfl
  · intro hbusy
    obtain ⟨r, hr⟩ := Option.ne_none_iff_exists'.1 hbusy
    exact State.grant_busy hr
  · intro hnone
    have hnext : s.nextGrant = none :=
      s.nextGrant_eq_none_iff.2 fun L => (Lane.nextBlock_eq_none_iff _).2 fun i hi =>
        hnone L i ((Lane.mem_ordinals _ i).1 hi).1 ((Lane.mem_ordinals _ i).1 hi).2
    exact ⟨State.grant_none hnext, exec_renderStart_none hnext⟩
  · rintro hidle ⟨L, i, hlo, hhi, hi⟩
    have hnext : s.nextGrant ≠ none := fun hnone => by
      have hin := ((s.lane L).mem_ordinals i).2 ⟨hlo, hhi⟩
      rw [(Lane.nextBlock_eq_none_iff _).1 (s.nextGrant_eq_none_iff.1 hnone L) i hin] at hi
      exact absurd hi (by decide)
    obtain ⟨⟨M, j⟩, hj⟩ := Option.ne_none_iff_exists'.1 hnext
    refine ⟨?_, exec_renderStart_due hidle hnext⟩
    rw [State.grant_starts hidle hj]
    exact Option.some_ne_none _

end Sys2Proof.Machine

/-! PROOF. The completion of a render (R99 to R101): what it writes to the Sample Store, what the lane record takes from
it, and the SYNCs then answered (R102). The statement O44. -/

namespace Sys2Proof.Machine
open Sys2Proof

/-! ### The Sample Store after a completion (R99) -/

theorem writeRestored_rest (ys : List Int) (k : Nat) (m : SampleStore) :
    (writeRestored m k ys).raw = m.raw ∧ (writeRestored m k ys).missing = m.missing ∧
    (writeRestored m k ys).checkpoints = m.checkpoints := by
  induction ys generalizing k m with
  | nil => exact ⟨rfl, rfl, rfl⟩
  | cons y ys ih => exact ih _ _

/-- The samples stand from address `k` on; every other address reads as before. -/
theorem writeRestored_read (ys : List Int) (k a : Nat) {m : SampleStore} (h : m.wf = true) :
    Cells.read 0 a (writeRestored m k ys).restored =
      if a < k then Cells.read 0 a m.restored else ys[a - k]?.getD (Cells.read 0 a m.restored) := by
  induction ys generalizing k m with
  | nil => simp [writeRestored]
  | cons y ys ih =>
    have hread : Cells.read 0 a (m.setRestored k y).restored = if a = k then y else Cells.read 0 a m.restored :=
      Cells.read_write 0 k a y ((SampleStore.wf_iff m).1 h).2.2.1
    rw [writeRestored, ih (k + 1) (SampleStore.setRestored_wf m k y h), hread]
    rcases Nat.lt_trichotomy a k with hlt | rfl | hgt
    · rw [if_pos (by omega), if_neg (by omega), if_pos hlt]
    · simp
    · rw [if_neg (by omega), if_neg (by omega), if_neg (by omega), show a - k = a - (k + 1) + 1 by omega,
        List.getElem?_cons_succ]

theorem Lane.isFinal_iff (l : Lane) (j : Nat) : l.isFinal j = true ↔ l.final = some (l.firstOf j) := by
  simp [Lane.isFinal]

theorem State.completedStore_rest (s : State) (r : Render) :
    (s.completedStore r).raw = s.store.raw ∧ (s.completedStore r).missing = s.store.missing ∧
    (s.completedStore r).restored = (writeRestored s.store ((s.lane r.lane).cell r.first) r.result.1).restored := by
  obtain ⟨hraw, hmissing, -⟩ := writeRestored_rest r.result.1 ((s.lane r.lane).cell r.first) s.store
  unfold State.completedStore
  dsimp only
  split
  · exact ⟨hraw, hmissing, rfl⟩
  · exact ⟨hraw, hmissing, rfl⟩

theorem State.completedStore_checkpoint (s : State) (r : Render) (h : s.storeWf) (n : Nat) :
    (s.completedStore r).checkpoint n =
      if ¬ (s.lane r.lane).final = some ((s.lane r.lane).firstOf r.block) ∧
          n = (s.lane r.lane).slotOf (r.block + 1) then
        { latch := (s.store.checkpoint n).latch, filter := r.result.2 }
      else s.store.checkpoint n := by
  have hold : ∀ n, (writeRestored s.store ((s.lane r.lane).cell r.first) r.result.1).checkpoint n =
      s.store.checkpoint n := fun n => by
    rw [SampleStore.checkpoint, (writeRestored_rest _ _ _).2.2]
    rfl
  unfold State.completedStore
  dsimp only
  by_cases hfinal : (s.lane r.lane).isFinal r.block = true
  · rw [if_pos hfinal, if_neg (fun hn => hn.1 ((Lane.isFinal_iff _ _).1 hfinal)), hold]
  · rw [if_neg hfinal, SampleStore.checkpoint_setCheckpoint _ _ _ _ (writeRestored_wf _ _ h), hold, hold]
    by_cases hn : n = (s.lane r.lane).slotOf (r.block + 1)
    · rw [if_pos hn, if_pos ⟨fun hf => hfinal ((Lane.isFinal_iff _ _).2 hf), hn⟩, hn]
    · rw [if_neg hn, if_neg fun hc => hn hc.2]

/-! ### The lane record after a completion (R99 to R101) -/

/-- The lane with the rendered block's state and the render point, before the cascade (R99, R100). -/
def Lane.blockRendered (l : Lane) (r : Render) : Lane :=
  { l.setBlock r.block (l.block r.block).completed with
    render := if r.kind = .first then l.render + r.length else l.render }

/-- The cascade reaches the next block: at a re-render, one in the ring after the rendered block and rendered before
(R101). -/
abbrev Lane.Cascades (l : Lane) (r : Render) : Prop :=
  r.kind = .rerender ∧ ¬ l.final = some (l.firstOf r.block) ∧ l.oldest ≤ r.block + 1 ∧
    r.block + 1 < l.oldest + l.ring.length ∧ (l.block (r.block + 1)).rendered = true

theorem Lane.completed_eq (l : Lane) (r : Render) : l.completed r =
    if r.kind = .rerender ∧ (l.blockRendered r).isFinal r.block = false ∧ (l.blockRendered r).inRing (r.block + 1) ∧
        ((l.blockRendered r).block (r.block + 1)).rendered then
      (l.blockRendered r).setBlock (r.block + 1)
        (((l.blockRendered r).block (r.block + 1)).cascaded (r.mark.getD 0))
    else l.blockRendered r := by
  have hpoint : (if r.kind = .first then
        { l.setBlock r.block (l.block r.block).completed with render := l.render + r.length }
      else l.setBlock r.block (l.block r.block).completed) = l.blockRendered r := by
    unfold Lane.blockRendered
    split <;> rfl
  rw [← hpoint]
  rfl

theorem Lane.completed_fields (l : Lane) (r : Render) : l.completed r = { l with
    render := if r.kind = .first then l.render + r.length else l.render
    blocks := (l.completed r).blocks } := by
  rw [Lane.completed_eq]
  split
  · rfl
  · rfl

theorem Lane.entryOf_succ_ne {l : Lane} (h : 2 ≤ l.ring.length) (j : Nat) : l.entryOf j ≠ l.entryOf (j + 1) := by
  intro he
  have hdvd := (Nat.modEq_iff_dvd' (Nat.le_succ j)).1 (show j ≡ j + 1 [MOD l.ring.length] from he)
  rw [Nat.succ_eq_add_one, Nat.add_sub_cancel_left, Nat.dvd_one] at hdvd
  omega

section
variable {l : Lane} (r : Render)

theorem Lane.blockRendered_block_self (hr : 0 < l.ring.length) (hb : l.blocks.length = l.ring.length) :
    (l.blockRendered r).block r.block = (l.block r.block).completed :=
  Lane.block_setBlock_self hb hr _ _

theorem Lane.blockRendered_block_ne {i : Nat} (h : l.entryOf r.block ≠ l.entryOf i) :
    (l.blockRendered r).block i = l.block i :=
  Lane.block_setBlock_ne h _

/-- With the rendered block and the next on ring entries of their own, the cascade reads the next block as it stood. -/
theorem Lane.completed_eq_of_two (h2 : 2 ≤ l.ring.length) : l.completed r =
    if l.Cascades r then
      (l.blockRendered r).setBlock (r.block + 1) ((l.block (r.block + 1)).cascaded (r.mark.getD 0))
    else l.blockRendered r := by
  have hfinal : (l.blockRendered r).isFinal r.block = false ↔ ¬ l.final = some (l.firstOf r.block) := by
    rw [← Bool.not_eq_true]
    exact not_congr (l.isFinal_iff r.block)
  have hring : (l.blockRendered r).inRing (r.block + 1) = true ↔
      l.oldest ≤ r.block + 1 ∧ r.block + 1 < l.oldest + l.ring.length := by
    have : (l.blockRendered r).inRing (r.block + 1) = l.inRing (r.block + 1) := rfl
    rw [this, Lane.inRing, Bool.and_eq_true, decide_eq_true_eq, decide_eq_true_eq]
    rfl
  rw [Lane.completed_eq, Lane.blockRendered_block_ne r (Lane.entryOf_succ_ne h2 _)]
  refine if_congr ?_ rfl rfl
  rw [hfinal, hring, Lane.Cascades, and_assoc]

theorem Lane.completed_block_self (h2 : 2 ≤ l.ring.length) (hb : l.blocks.length = l.ring.length) :
    (l.completed r).block r.block = (l.block r.block).completed := by
  rw [Lane.completed_eq_of_two r h2]
  have hself := Lane.blockRendered_block_self r (by omega) hb
  split
  · exact (Lane.block_setBlock_ne (l := l.blockRendered r) (Lane.entryOf_succ_ne h2 r.block).symm _).trans hself
  · exact hself

theorem Lane.completed_block_next (h2 : 2 ≤ l.ring.length) (hb : l.blocks.length = l.ring.length) :
    (l.completed r).block (r.block + 1) =
      if l.Cascades r then (l.block (r.block + 1)).cascaded (r.mark.getD 0) else l.block (r.block + 1) := by
  have hlen : (l.blockRendered r).blocks.length = (l.blockRendered r).ring.length := List.length_set.trans hb
  have hpos : 0 < (l.blockRendered r).ring.length := show 0 < l.ring.length by omega
  rw [Lane.completed_eq_of_two r h2]
  split
  · exact Lane.block_setBlock_self hlen hpos _ _
  · exact Lane.blockRendered_block_ne r (Lane.entryOf_succ_ne h2 _)

theorem Lane.completed_block_ne (h2 : 2 ≤ l.ring.length) {i : Nat} (hself : l.entryOf r.block ≠ l.entryOf i)
    (hnext : l.entryOf (r.block + 1) ≠ l.entryOf i) : (l.completed r).block i = l.block i := by
  rw [Lane.completed_eq_of_two r h2]
  have hkept := Lane.blockRendered_block_ne r hself
  split
  · exact (Lane.block_setBlock_ne (l := l.blockRendered r) hnext _).trans hkept
  · exact hkept

end

/-- The cascade mark, state by state. -/
theorem Block.cascaded_eq (b : Block) (m : Nat) : b.cascaded m =
    match b.state with
    | .rendered => { b with state := .dirty, mark := some m }
    | .dirty => { b with mark := some (b.mark.elim m fun x => min x m) }
    | .free => b
    | .filling => b
    | .analysed => b
    | .rendering => b := by
  have hlower : lowerMark m b.mark = some (b.mark.elim m fun x => min x m) := by cases b.mark <;> rfl
  cases hs : b.state <;> simp only [Block.cascaded, hs, hlower]

/-! ### RENDER_COMPLETION -/

/-- The state once the result of render `r` is written and the engine IDLE, before the SYNCs are answered. -/
def State.resultWritten (s : State) (r : Render) : State :=
  ((s.event.setEngine ⟨s.engine.pointer, none⟩).setStore (s.completedStore r)).modLane r.lane (Lane.completed · r)

theorem State.resultWritten_lane (s : State) (r : Render) :
    (s.resultWritten r).lane r.lane = (s.lane r.lane).completed r := State.lane_modLane_same _ _ _

theorem State.resultWritten_lane_ne (s : State) {r : Render} {M : LaneId} (h : M ≠ r.lane) :
    (s.resultWritten r).lane M = s.lane M := State.lane_modLane_ne _ _ _ _ h

theorem State.resultWritten_port (s : State) (r : Render) (q : Port) : (s.resultWritten r).port q = s.port q := by
  cases q <;> rfl

section
variable {s : State} {r : Render} (h : s.engine.inFlight = some r)
include h

theorem exec_renderCompletion : exec .renderCompletion s = .next (s.event.completeRender r).grant := by
  rw [exec, execRenderCompletion, h]

theorem exec_renderCompletion_abandoned (ha : r.abandoned = true) :
    exec .renderCompletion s = .next (s.event.setEngine ⟨s.engine.pointer, none⟩).grant := by
  rw [exec_renderCompletion h, State.completeRender, if_pos ha]
  rfl

theorem exec_renderCompletion_written (ha : r.abandoned = false) :
    exec .renderCompletion s = .next ((s.resultWritten r).answerSyncs r.lane).grant := by
  rw [exec_renderCompletion h, State.completeRender, ha]
  rfl

end

/-- Settles O44: the store by `State.completedStore_rest` and `State.completedStore_checkpoint`, the blocks by the three
rules of `Lane.completed`, the ports by `State.answerSyncs_port`. -/
theorem renderCompletionWritesItsResult : Obligations.RenderCompletionWritesItsResult := by
  intro s r hr idle
  refine ⟨exec_renderCompletion_abandoned hr, fun ha hwf => ?_⟩
  intro l ys final address
  have hown : ((s.resultWritten r).answerSyncs r.lane).lane r.lane = l.completed r := s.resultWritten_lane r
  obtain ⟨hraw, hmissing, hrestored⟩ := s.completedStore_rest r
  have hread := fun a => writeRestored_read ys address a hwf
  refine ⟨_, exec_renderCompletion_written hr ha, rfl, rfl, rfl, rfl,
    fun M hM => s.resultWritten_lane_ne hM, hraw, hmissing, fun i y hi => ?_, fun a hout => ?_,
    fun n => s.completedStore_checkpoint r hwf n, ?_, fun h2 hb => ?_, fun q => ?_⟩
  · refine (congrArg _ hrestored).trans ((hread _).trans ?_)
    rw [if_neg (by omega), Nat.add_sub_cancel_left, hi]
    rfl
  · refine (congrArg _ hrestored).trans ((hread _).trans ?_)
    by_cases hlt : a < address
    · rw [if_pos hlt]
    · rw [if_neg hlt, List.getElem?_eq_none (by omega)]
      rfl
  · rw [hown]
    exact l.completed_fields r
  · rw [hown]
    refine ⟨Lane.completed_block_self r h2 hb, ?_, fun i hself hnext =>
      Lane.completed_block_ne r h2 (Ne.symm hself) (Ne.symm hnext)⟩
    exact (Lane.completed_block_next r h2 hb).trans (if_congr Iff.rfl (Block.cascaded_eq _ _) rfl)
  · rw [State.answerSyncs_port, State.resultWritten_port, hown, State.resultWritten_lane]
    exact ⟨rfl, rfl⟩

end Sys2Proof.Machine

/-! PROOF. The three stages of a render (R95): the repair line between its anchors (R97, R43), the hum stage harmonic by
harmonic (R126 to R128), the hiss stage (R132 to R134), and the render position by position. The statement O52. -/

namespace Sys2Proof.Machine
open Sys2Proof

/-! ### Rounding and the repair line (R97, R43) -/

/-- The rounded quotient as a natural number: within half a divisor of the exact one, and above it at half. -/
theorem roundHalfUp_bounds (n : Nat) {d : Nat} (hd : 0 < d) :
    2 * n < 2 * (d * roundHalfUp n d) + d ∧ 2 * (d * roundHalfUp n d) ≤ 2 * n + d := by
  have hdiv := Nat.div_add_mod (2 * n + d) (2 * d)
  have hmod := Nat.mod_lt (2 * n + d) (Nat.mul_pos two_pos hd)
  rw [Nat.mul_assoc] at hdiv
  unfold roundHalfUp
  omega

theorem roundAway_eq (num : Int) (den : Nat) :
    roundAway num den =
      if num < 0 then -(roundHalfUp num.natAbs den : Int) else (roundHalfUp num.natAbs den : Int) := rfl

/-- Rounded to the nearest integer, halves away from zero. -/
theorem roundAway_nearest (num : Int) {den : Nat} (hd : 0 < den) :
    2 * (roundAway num den * den - num).natAbs ≤ den ∧
    (2 * (roundAway num den * den - num).natAbs = den → num.natAbs < (roundAway num den * den).natAbs) := by
  obtain ⟨hlow, hhigh⟩ := roundHalfUp_bounds num.natAbs hd
  have hcast : (roundHalfUp num.natAbs den : Int) * den = ((den * roundHalfUp num.natAbs den : Nat) : Int) := by
    push_cast
    exact Int.mul_comm _ _
  rw [roundAway_eq]
  split
  · rw [Int.neg_mul, hcast]
    omega
  · rw [hcast]
    omega

/-- A quotient that is at most `m` in size stays so when rounded, and keeps its sign. -/
theorem roundAway_le {num : Int} {den m : Nat} (hd : 0 < den) (h : num.natAbs ≤ m * den) :
    (roundAway num den).natAbs ≤ m ∧ (0 ≤ num → 0 ≤ roundAway num den) ∧ (num ≤ 0 → roundAway num den ≤ 0) := by
  have hle : roundHalfUp num.natAbs den ≤ m := by
    refine Nat.le_of_lt_succ ((Nat.div_lt_iff_lt_mul (Nat.mul_pos two_pos hd)).2 ?_)
    calc 2 * num.natAbs + den ≤ 2 * (m * den) + den := by omega
      _ < 2 * (m * den) + 2 * den := by omega
      _ = (m + 1) * (2 * den) := by ring
  have hzero : num = 0 → roundHalfUp num.natAbs den = 0 := by
    rintro rfl
    exact Nat.div_eq_of_lt (by simp [hd])
  rw [roundAway_eq]
  split <;> omega

theorem interpolate_between (a b : Int) {len i : Nat} (hi : i < len) :
    min a b ≤ interpolate a b len i ∧ interpolate a b len i ≤ max a b := by
  have hsize : ((b - a) * ((i : Int) + 1)).natAbs ≤ (b - a).natAbs * (len + 1) := by
    rw [Int.natAbs_mul]
    exact Nat.mul_le_mul_left _ (by omega)
  obtain ⟨habs, hpos, hneg⟩ := roundAway_le (den := len + 1) (Nat.succ_pos len) hsize
  unfold interpolate
  rcases Int.le_total 0 (b - a) with hab | hab
  · have := hpos (Int.mul_nonneg hab (by omega))
    omega
  · have := hneg (Int.mul_nonpos_of_nonpos_of_nonneg hab (by omega))
    omega

theorem repairStage_of_none {rs : List SnapRecord} {pos : Nat} {raw : Int}
    (h : (rs.find? fun r => decide (r.start ≤ pos) && decide (pos < r.start + r.length)) = none) :
    repairStage rs pos raw = raw := by
  rw [repairStage, h]

theorem repairStage_of_some {rs : List SnapRecord} {pos : Nat} {raw : Int} {c : SnapRecord}
    (h : (rs.find? fun r => decide (r.start ≤ pos) && decide (pos < r.start + r.length)) = some c) :
    repairStage rs pos raw = interpolate c.before c.after c.length (pos - c.start) := by
  rw [repairStage, h]

theorem repairStage_isSample {rs : List SnapRecord} (hrs : ∀ c ∈ rs, isSample c.before ∧ isSample c.after) (pos : Nat)
    {raw : Int} (hraw : isSample raw) : isSample (repairStage rs pos raw) := by
  cases h : rs.find? fun r => decide (r.start ≤ pos) && decide (pos < r.start + r.length) with
  | none => rwa [repairStage_of_none h]
  | some c =>
    obtain ⟨hbefore, hafter⟩ := hrs c (List.mem_of_find?_eq_some h)
    have hcovers := List.find?_some h
    simp only [Bool.and_eq_true, decide_eq_true_eq] at hcovers
    have hbetween := interpolate_between c.before c.after (show pos - c.start < c.length by omega)
    rw [repairStage_of_some h]
    unfold isSample at *
    omega

/-! ### The hum stage (R126 to R128) -/

theorem clampInt_eq {lo hi : Int} (h : lo ≤ hi) (x : Int) : clampInt lo hi x = max lo (min hi x) := by
  unfold clampInt
  split
  · omega
  · split <;> omega

theorem sat24_eq (x : Int) : sat24 x = max (-8388608) (min 8388607 x) := clampInt_eq (by decide) x

theorem sat32_eq (x : Int) : sat32 x = max (-2147483648) (min 2147483647 x) := clampInt_eq (by decide) x

theorem sat24_isSample (x : Int) : isSample (sat24 x) := by
  rw [sat24_eq]
  unfold isSample
  omega

theorem adaptCoefficient_range (mu : Nat) (e x c : Int) :
    -2147483648 ≤ adaptCoefficient mu e x c ∧ adaptCoefficient mu e x c ≤ 2147483647 := by
  rw [adaptCoefficient, sat32_eq]
  omega

/-- Entries of a vector updated one after another, each once. -/
theorem foldl_set_getElem {n : Nat} (f : Fin n → Int → Int) (is : List (Fin n)) (hd : is.Nodup) (v : Vector Int n)
    (k : Fin n) : (is.foldl (fun v i => v.set i.val (f i v[i.val])) v)[k.val] =
      if k ∈ is then f k v[k.val] else v[k.val] := by
  induction is generalizing v with
  | nil => rfl
  | cons i is ih =>
    obtain ⟨hi, hd⟩ := List.nodup_cons.1 hd
    rw [List.foldl_cons, ih hd]
    by_cases hk : k = i
    · subst hk
      rw [if_neg hi, Vector.getElem_set_self, if_pos List.mem_cons_self]
    · rw [Vector.getElem_set_ne _ _ fun h => hk (Fin.ext h.symm)]
      exact if_congr (by simp [hk]) rfl rfl

theorem activeHarmonics_nodup (p : Profile) (increment : Nat) : (activeHarmonics p increment).Nodup :=
  (List.nodup_finRange 8).filter _

theorem mem_activeHarmonics (p : Profile) (increment : Nat) (k : Fin 8) :
    k ∈ activeHarmonics p increment ↔ harmonicActive p increment k = true := by
  simp [activeHarmonics]

section
variable (p : Profile) (increment : Nat) (w : Filter) (x : Int)

/-- The estimate as a sum over all eight harmonics, the inactive ones giving nothing. -/
theorem humEstimate_activeHarmonics : humEstimate (activeHarmonics p increment) w =
    ((List.finRange 8).map fun k => if harmonicActive p increment k then
      w.a[k.val] * waveCos (k.val + 1) w.phase + w.b[k.val] * waveSin (k.val + 1) w.phase else 0).sum / 8388608 := by
  rw [List.sum_map_ite]
  simp [humEstimate, activeHarmonics, asr]

/-- The coefficients after the hum stage: those of the active harmonics have moved. -/
theorem humStage_coefficients (k : Fin 8) :
    (humStage p increment (activeHarmonics p increment) w x).2.a[k.val] =
      (if harmonicActive p increment k then adaptCoefficient p.mu
          (humStage p increment (activeHarmonics p increment) w x).1 (waveCos (k.val + 1) w.phase) w.a[k.val]
        else w.a[k.val]) ∧
    (humStage p increment (activeHarmonics p increment) w x).2.b[k.val] =
      if harmonicActive p increment k then adaptCoefficient p.mu
          (humStage p increment (activeHarmonics p increment) w x).1 (waveSin (k.val + 1) w.phase) w.b[k.val]
        else w.b[k.val] := by
  have hd := activeHarmonics_nodup p increment
  have hmem := mem_activeHarmonics p increment k
  set e := (humStage p increment (activeHarmonics p increment) w x).1 with he
  exact ⟨(foldl_set_getElem (fun i => adaptCoefficient p.mu e (waveCos (i.val + 1) w.phase)) _ hd w.a k).trans
      (if_congr hmem rfl rfl),
    (foldl_set_getElem (fun i => adaptCoefficient p.mu e (waveSin (i.val + 1) w.phase)) _ hd w.b k).trans
      (if_congr hmem rfl rfl)⟩

theorem humStage_inRange (hw : w.inRange) :
    isSample (humStage p increment (activeHarmonics p increment) w x).1 ∧
    (humStage p increment (activeHarmonics p increment) w x).2.inRange := by
  obtain ⟨-, ha, hb, hy, hv⟩ := hw
  refine ⟨sat24_isSample _, Nat.mod_lt _ (by decide), fun k => ?_, fun k => ?_, hy, hv⟩
  · rw [(humStage_coefficients p increment w x k).1]
    split
    · exact adaptCoefficient_range _ _ _ _
    · exact ha k
  · rw [(humStage_coefficients p increment w x k).2]
    split
    · exact adaptCoefficient_range _ _ _ _
    · exact hb k

end

/-! ### The hiss stage (R132 to R134) -/

/-- The last entry of a rising list that satisfies `P`, or the entry begun with. -/
theorem foldl_last {n : Nat} (P : Fin n → Prop) [DecidablePred P] (js : List (Fin n)) (b : Fin n)
    (hjs : js.Pairwise (· < ·)) (hb : ∀ j ∈ js, b ≤ j) :
    let r := js.foldl (fun best j => if P j then j else best) b
    (P r ∨ r = b) ∧ b ≤ r ∧ ∀ i ∈ js, P i → i ≤ r := by
  induction js generalizing b with
  | nil => exact ⟨.inr rfl, le_refl b, fun i hi => absurd hi List.not_mem_nil⟩
  | cons j js ih =>
    obtain ⟨hj, hjs⟩ := List.pairwise_cons.1 hjs
    have hbj : b ≤ j := hb j List.mem_cons_self
    simp only [List.foldl_cons]
    by_cases hP : P j
    · rw [if_pos hP]
      obtain ⟨hlast, hle, hmax⟩ := ih j hjs fun i hi => (hj i hi).le
      refine ⟨.inl ?_, hbj.trans hle, fun i hi hPi => ?_⟩
      · exact hlast.elim id fun h => by rwa [h]
      · rcases List.mem_cons.1 hi with rfl | hi
        · exact hle
        · exact hmax i hi hPi
    · rw [if_neg hP]
      obtain ⟨hlast, hle, hmax⟩ := ih b hjs fun i hi => hb i (List.mem_cons_of_mem _ hi)
      refine ⟨hlast, hle, fun i hi hPi => ?_⟩
      rcases List.mem_cons.1 hi with rfl | hi
      · exact absurd hPi hP
      · exact hmax i hi hPi

/-- The step of the ladder is the highest whose level the envelope has reached, or the first (R133). -/
theorem hissStep_spec (p : Profile) (v : Int) :
    (16 * ((p.levels[(hissStep p v).val] : Nat) : Int) ≤ v ∨ hissStep p v = 0) ∧
    ∀ i, hissStep p v < i → ¬ 16 * ((p.levels[i.val] : Nat) : Int) ≤ v := by
  obtain ⟨hlast, -, hmax⟩ := foldl_last (fun j : Fin 12 => 16 * ((p.levels[j.val] : Nat) : Int) ≤ v)
    (List.finRange 12) 0 (List.pairwise_lt_finRange 12) fun j _ => Fin.zero_le j
  exact ⟨hlast, fun i hi hPi => absurd hi (not_lt.2 (hmax i (List.mem_finRange i) hPi))⟩

theorem hissEnvelope_range {v u : Int} (hv : 0 ≤ v ∧ v ≤ 134217728) (hu : isSample u) :
    0 ≤ hissEnvelope v u ∧ hissEnvelope v u ≤ 134217728 := by
  unfold isSample at hu
  unfold hissEnvelope asr
  omega

/-- A value moved toward another by a part of their difference stays an internal sample (R134). -/
theorem smoothed_isSample {y u alpha : Int} (hy : isSample y) (hu : isSample u) (h0 : 0 ≤ alpha) (h1 : alpha ≤ 32768) :
    isSample (y + asr ((u - y) * alpha) 15) := by
  unfold isSample asr at *
  rcases Int.le_total y u with hyu | huy
  · have hlow : 0 ≤ (u - y) * alpha := Int.mul_nonneg (by omega) h0
    have hhigh : (u - y) * alpha ≤ (u - y) * 32768 := Int.mul_le_mul_of_nonneg_left h1 (by omega)
    omega
  · have hhigh : (u - y) * alpha ≤ 0 := Int.mul_nonpos_of_nonpos_of_nonneg (by omega) h0
    have hlow : (u - y) * 32768 ≤ (u - y) * alpha := Int.mul_le_mul_of_nonpos_left (by omega) h1
    omega

theorem Profile.inRange.alpha_le {p : Profile} (h : p.inRange) (j : Fin 12) : p.alphas[j.val] ≤ 32768 := by
  obtain ⟨-, -, -, -, -, -, -, -, -, -, -, -, -, -, -, -, -, halphas, -⟩ := h
  exact (halphas j).2

theorem hissStage_inRange {p : Profile} (hp : p.inRange) {w : Filter} (hw : w.inRange)
    {u : Int} (hu : isSample u) : (hissStage p w u).inRange := by
  obtain ⟨hphase, ha, hb, hy, hv⟩ := hw
  have halpha := hp.alpha_le (hissStep p (hissEnvelope w.v u))
  exact ⟨hphase, ha, hb, smoothed_isSample hy hu (by omega) (by omega), hissEnvelope_range hv hu⟩

/-! ### The render, position by position (R95) -/

/-- The working state after position `pos` with raw value `raw`: repair, then hum where it is not bypassed,
then hiss. -/
def Render.stateAfter (r : Render) (bypass : Bool) (pos : Nat) (raw : Int) (w : Filter) : Filter :=
  let x := repairStage r.records pos raw
  if bypass then hissStage r.profile w x
  else
    let hum := humStage r.profile r.latch.increment (activeHarmonics r.profile r.latch.increment) w x
    hissStage r.profile hum.2 hum.1

/-- The render of a run of positions under the block's own harmonics. -/
def Render.run (r : Render) (bypass : Bool) : Nat → List Int → Filter → List Int × Filter :=
  renderRun r bypass (activeHarmonics r.profile r.latch.increment)

section
variable (r : Render) (bypass : Bool)

theorem Render.run_cons (pos : Nat) (x : Int) (xs : List Int) (w : Filter) : r.run bypass pos (x :: xs) w =
    ((r.stateAfter bypass pos x w).y :: (r.run bypass (pos + 1) xs (r.stateAfter bypass pos x w)).1,
      (r.run bypass (pos + 1) xs (r.stateAfter bypass pos x w)).2) := by
  cases bypass <;> rfl

theorem Render.run_append (pos : Nat) (xs zs : List Int) (w : Filter) : r.run bypass pos (xs ++ zs) w =
    ((r.run bypass pos xs w).1 ++ (r.run bypass (pos + xs.length) zs (r.run bypass pos xs w).2).1,
      (r.run bypass (pos + xs.length) zs (r.run bypass pos xs w).2).2) := by
  induction xs generalizing pos w with
  | nil => rfl
  | cons x xs ih =>
    rw [List.cons_append, Render.run_cons, Render.run_cons, ih, List.length_cons, Nat.add_assoc, Nat.add_comm 1]
    rfl

theorem Render.run_length (pos : Nat) (xs : List Int) (w : Filter) : (r.run bypass pos xs w).1.length = xs.length := by
  induction xs generalizing pos w with
  | nil => rfl
  | cons x xs ih => rw [Render.run_cons, List.length_cons, List.length_cons, ih]

/-- The working state left by the first `i` positions of the render. -/
def Render.workAfter (i : Nat) : Filter := (r.run bypass r.first (r.raw.take i) r.work).2

theorem Render.workAfter_length : r.workAfter bypass r.raw.length = (r.run bypass r.first r.raw r.work).2 := by
  rw [Render.workAfter, List.take_length]

/-- Position `i` is rendered from the state the positions before it left, and gives the y of the state it leaves. -/
theorem Render.workAfter_succ {i : Nat} {x : Int} (h : r.raw[i]? = some x) :
    r.workAfter bypass (i + 1) = r.stateAfter bypass (r.first + i) x (r.workAfter bypass i) ∧
    (r.run bypass r.first r.raw r.work).1[i]? = some (r.workAfter bypass (i + 1)).y := by
  obtain ⟨hi, -⟩ := List.getElem?_eq_some_iff.1 h
  have hlen : (r.raw.take i).length = i := List.length_take_of_le hi.le
  have hstep : r.run bypass r.first (r.raw.take (i + 1)) r.work =
      ((r.run bypass r.first (r.raw.take i) r.work).1 ++
          [(r.stateAfter bypass (r.first + i) x (r.workAfter bypass i)).y],
        r.stateAfter bypass (r.first + i) x (r.workAfter bypass i)) := by
    rw [List.take_add_one, h, Option.toList_some, Render.run_append, hlen, Render.run_cons]
    rfl
  have hstate : r.workAfter bypass (i + 1) = r.stateAfter bypass (r.first + i) x (r.workAfter bypass i) :=
    congrArg Prod.snd hstep
  refine ⟨hstate, ?_⟩
  rw [hstate, ← List.take_append_drop (i + 1) r.raw, Render.run_append, hstep]
  have hbefore := r.run_length bypass r.first (r.raw.take i) r.work
  rw [hlen] at hbefore
  rw [List.getElem?_append_left (by simp [hbefore]), List.getElem?_append_right hbefore.le, hbefore, Nat.sub_self]
  rfl

end

/-! ### Ranges over a render -/

section
variable {r : Render} (hp : r.profile.inRange) (hrecords : ∀ c ∈ r.records, isSample c.before ∧ isSample c.after)
include hp hrecords

theorem Render.stateAfter_inRange (bypass : Bool) (pos : Nat) {x : Int} (hx : isSample x) {w : Filter}
    (hw : w.inRange) : (r.stateAfter bypass pos x w).inRange := by
  have hrepaired := repairStage_isSample hrecords pos hx
  cases bypass with
  | true => exact hissStage_inRange hp hw hrepaired
  | false =>
    obtain ⟨hsample, hrange⟩ := humStage_inRange r.profile r.latch.increment w (repairStage r.records pos x) hw
    exact hissStage_inRange hp hrange hsample

theorem Render.run_inRange (bypass : Bool) (pos : Nat) {xs : List Int} (hxs : ∀ x ∈ xs, isSample x) {w : Filter}
    (hw : w.inRange) : (∀ y ∈ (r.run bypass pos xs w).1, isSample y) ∧ (r.run bypass pos xs w).2.inRange := by
  induction xs generalizing pos w with
  | nil => exact ⟨fun y hy => absurd hy List.not_mem_nil, hw⟩
  | cons x xs ih =>
    have hstep := Render.stateAfter_inRange hp hrecords bypass pos (hxs x List.mem_cons_self) hw
    obtain ⟨hrest, hleft⟩ := ih (pos + 1) (fun z hz => hxs z (List.mem_cons_of_mem _ hz)) hstep
    rw [Render.run_cons]
    refine ⟨fun y hy => ?_, hleft⟩
    obtain ⟨-, -, -, hsample, -⟩ := hstep
    rcases List.mem_cons.1 hy with rfl | hy
    · exact hsample
    · exact hrest y hy

end

theorem humBypassed_iff (m : HumMode) (line : LineState) :
    humBypassed m line = true ↔ m = .tracked ∧ (line = .searching ∨ line = .disabled) := by
  simp [humBypassed]

/-- The filter fields a render leaves: those of its last position, with phase and coefficients 0 where the hum stage was
bypassed (R130). -/
theorem Render.result_eq (r : Render) : r.result =
    ((r.run (humBypassed r.profile.mode r.latch.line) r.first r.raw r.work).1,
      let w := (r.run (humBypassed r.profile.mode r.latch.line) r.first r.raw r.work).2
      if humBypassed r.profile.mode r.latch.line then ⟨0, Vector.replicate 8 0, Vector.replicate 8 0, w.y, w.v⟩
      else w) := rfl

theorem Filter.inRange.withoutHum {w : Filter} (h : w.inRange) :
    (⟨0, Vector.replicate 8 0, Vector.replicate 8 0, w.y, w.v⟩ : Filter).inRange := by
  obtain ⟨-, -, -, hy, hv⟩ := h
  exact ⟨show (0 : Nat) < 4294967296 by decide, by simp, by simp, hy, hv⟩

theorem Render.result_inRange {r : Render} (hp : r.profile.inRange) (hw : r.work.inRange)
    (hraw : ∀ x ∈ r.raw, isSample x) (hrecords : ∀ c ∈ r.records, isSample c.before ∧ isSample c.after) :
    (∀ y ∈ r.result.1, isSample y) ∧ r.result.2.inRange := by
  obtain ⟨hys, hleft⟩ :=
    Render.run_inRange hp hrecords (humBypassed r.profile.mode r.latch.line) r.first hraw hw
  rw [Render.result_eq]
  refine ⟨hys, ?_⟩
  dsimp only
  split
  · exact hleft.withoutHum
  · exact hleft

/-- Settles O52: the repair line by `roundAway_nearest` and `interpolate_between`, the stages by their own rules, and
the render by `Render.workAfter_succ`. -/
theorem repairHumAndHissStayInRange : Obligations.RepairHumAndHissStayInRange := by
  refine ⟨?_, ?_, ?_, ?_, ?_⟩
  · intro a b len i hi q exact off
    have hq : q = roundAway exact (len + 1) := add_sub_cancel_left a _
    obtain ⟨hnear, htie⟩ := roundAway_nearest exact (Nat.succ_pos len)
    rw [← hq] at hnear htie
    obtain ⟨hlow, hhigh⟩ := interpolate_between a b hi
    have hvalue : a + q = interpolate a b len i := add_sub_cancel a _
    exact ⟨hvalue ▸ hlow, hvalue ▸ hhigh, hnear, htie⟩
  · intro r hp hw hraw hrecords
    obtain ⟨hys, hleft⟩ := Render.result_inRange hp hw hraw hrecords
    refine ⟨Render.run_length _ _ _ _ _, hys, hleft, fun hmode hline => ?_⟩
    rw [Render.result_eq, (humBypassed_iff _ _).2 ⟨hmode, hline⟩]
    exact ⟨rfl, rfl, rfl⟩
  · intro p increment w x active estimate e moved stage
    have he : stage.1 = e := by
      have : stage.1 = sat24 (x - humEstimate (activeHarmonics p increment) w) := rfl
      rw [this, sat24_eq, humEstimate_activeHarmonics]
      rfl
    have hmoved : ∀ c wave, adaptCoefficient p.mu stage.1 wave c = moved c wave := fun c wave => by
      rw [he, adaptCoefficient, sat32_eq]
    refine ⟨he, rfl, rfl, rfl, fun k => ?_⟩
    rw [← hmoved, ← hmoved]
    exact humStage_coefficients p increment w x k
  · intro p w u v reached
    obtain ⟨hreached, habove⟩ := hissStep_spec p v
    exact ⟨hissStep p v, hreached, habove, rfl⟩
  · intro r bypassed covering
    have hbypassed : humBypassed r.profile.mode r.latch.line = true ↔ bypassed := humBypassed_iff _ _
    refine ⟨r.workAfter (humBypassed r.profile.mode r.latch.line), rfl, fun i x hx => ?_, ?_⟩
    · obtain ⟨hstate, hout⟩ := r.workAfter_succ (humBypassed r.profile.mode r.latch.line) hx
      refine ⟨repairStage r.records (r.first + i) x, repairStage_of_none, fun c => repairStage_of_some,
        fun h => ?_, fun h => ?_, hout⟩
      · rw [hstate, hbypassed.2 h]
        rfl
      · rw [hstate, (Bool.not_eq_true _).mp (mt hbypassed.1 h)]
        rfl
    · rw [Render.workAfter_length, Render.result_eq]
      exact ⟨fun h => if_neg (mt hbypassed.1 h), fun h => if_pos (hbypassed.2 h)⟩

end Sys2Proof.Machine

/-! PROOF. The events of perforation lines (R121, R175): the open lanes bound to a line, the counters counted on them
and the notices raised for them. The statement O36. -/

namespace Sys2Proof.Machine
open Sys2Proof

/-! ### The lanes bound to a line -/

/-- The open lanes bound to line `k`, in ascending number. -/
def State.boundLanes (s : State) (k : LineId) : List LaneId :=
  laneIds.filter fun L => (s.lane L).isOpen && (s.lane L).line == some k

theorem State.mem_boundLanes (s : State) (k : LineId) (L : LaneId) :
    L ∈ s.boundLanes k ↔ (s.lane L).state ≠ .closed ∧ (s.lane L).line = some k := by
  have hall : L ∈ laneIds := by
    revert L
    decide
  simp [State.boundLanes, List.mem_filter, hall, Lane.isOpen_iff]

theorem State.boundLanes_nodup (s : State) (k : LineId) : (s.boundLanes k).Nodup :=
  List.Nodup.filter _ (by decide)

theorem State.boundLanes_eq_nil_iff (s : State) (k : LineId) :
    s.boundLanes k = [] ↔ ∀ L, ¬((s.lane L).state ≠ .closed ∧ (s.lane L).line = some k) := by
  simp only [List.eq_nil_iff_forall_not_mem, State.mem_boundLanes]

/-! ### Counters -/

theorem State.foldl_count_lane (Ls : List LaneId) (hn : Ls.Nodup) (c : Ctr) (s : State) (M : LaneId) :
    (Ls.foldl (fun t L => t.count L c) s).lane M = if M ∈ Ls then (s.lane M).count c else s.lane M := by
  induction Ls generalizing s with
  | nil => rfl
  | cons L Ls ih =>
    obtain ⟨hL, hn⟩ := List.nodup_cons.1 hn
    rw [List.foldl_cons, ih hn]
    by_cases hM : M = L
    · subst hM
      simp [hL, State.count]
    · simp [hM, State.count, State.lane_modLane_ne _ _ _ _ hM]

/-- A line event counts on the open lanes bound to the line, and on no other (R121). -/
theorem State.countLine_lane (s : State) (k : LineId) (c : Ctr) (L : LaneId) :
    (s.countLine k c).lane L = if L ∈ s.boundLanes k then (s.lane L).count c else s.lane L :=
  State.foldl_count_lane _ (s.boundLanes_nodup k) c s L

/-- Counting reaches the lanes alone. -/
theorem State.countLine_rest (s : State) (k : LineId) (c : Ctr) :
    s.countLine k c = { s with lanes := (s.countLine k c).lanes } :=
  List.foldlRecOn (motive := fun t : State => t = { s with lanes := t.lanes }) _ _ rfl fun t ht L _ => by
    conv_lhs => rw [ht]
    rfl

/-! ### Notices -/

theorem State.sameButNotices.trans {r s t : State} (h : r.sameButNotices s) (h' : s.sameButNotices t) :
    r.sameButNotices t := by
  unfold State.sameButNotices at h h' ⊢
  rw [h', h]

/-- A notice raised for each lane of `Ls`, with the position `pos` gives it. -/
def State.raiseEach (s : State) (code : NoticeCode) (pos : LaneId → Nat) (detail : Nat) (Ls : List LaneId) : State :=
  Ls.foldl (fun t L => t.raise code (some L) (pos L) detail) s

section
variable (code : NoticeCode) (pos : LaneId → Nat) (detail : Nat)

theorem State.raiseEach_sameButNotices (Ls : List LaneId) (s : State) :
    s.sameButNotices (s.raiseEach code pos detail Ls) := by
  induction Ls generalizing s with
  | nil => rfl
  | cons L Ls ih => exact (s.raise_sameButNotices _ _ _ _).trans (ih _)

/-- An entry of none of the lanes stands. -/
theorem State.raiseEach_entry_ne (Ls : List LaneId) (s : State) (p : Port) (i : Fin 42)
    (hi : ∀ L ∈ Ls, i ≠ entryIndex code.category (some L)) :
    ((s.raiseEach code pos detail Ls).port p).entries[i.val] = (s.port p).entries[i.val] := by
  induction Ls generalizing s with
  | nil => rfl
  | cons L Ls ih =>
    obtain ⟨hL, hLs⟩ := List.forall_mem_cons.1 hi
    exact (ih _ hLs).trans (s.raise_entry_ne _ _ _ _ p i hL)

theorem entryIndex_lane_injective (category : Fin 6) {L M : LaneId}
    (h : entryIndex category (some L) = entryIndex category (some M)) : L = M := by
  simp only [entryIndex, Fin.mk.injEq] at h
  exact Fin.ext (by omega)

/-- The entry of each of the lanes has the occurrence folded into it once. -/
theorem State.raiseEach_entry (Ls : List LaneId) (hn : Ls.Nodup) (s : State) (p : Port) {L : LaneId} (hL : L ∈ Ls) :
    ((s.raiseEach code pos detail Ls).port p).entries[(entryIndex code.category (some L)).val] =
      s.foldedEntry p code (some L) (pos L) detail := by
  induction Ls generalizing s with
  | nil => cases hL
  | cons M Ls ih =>
    obtain ⟨hM, hn⟩ := List.nodup_cons.1 hn
    have hother : ∀ K, K ≠ M → entryIndex code.category (some K) ≠ entryIndex code.category (some M) :=
      fun K hK h => hK (entryIndex_lane_injective _ h)
    rcases List.mem_cons.1 hL with rfl | hL
    · refine (State.raiseEach_entry_ne code pos detail Ls _ p _ fun K hK => (hother K ?_).symm).trans
        (s.raise_entry _ _ _ _ p)
      exact fun h => hM (h ▸ hK)
    · have hne := hother L fun h => hM (h ▸ hL)
      have ht := s.raise_entry_ne code (some M) (pos M) detail p _ hne
      exact (ih hn _ hL).trans (State.foldedEntry_congr ht rfl _ _)

end

/-- Where no open lane is bound to the line, its event is the unit's (R121). -/
theorem State.raiseLine_unbound {s : State} {k : LineId} (h : s.boundLanes k = []) (code : NoticeCode) :
    s.raiseLine k code = s.raise code none k.val k.val :=
  if_pos (List.isEmpty_iff.2 h)

theorem State.raiseLine_bound {s : State} {k : LineId} (h : s.boundLanes k ≠ []) (code : NoticeCode) :
    s.raiseLine k code = s.raiseEach code (fun L => (s.lane L).analysis) k.val (s.boundLanes k) :=
  if_neg (mt List.isEmpty_iff.1 h)

/-- A line event raised reaches the notice entries alone. -/
theorem State.raiseLine_sameButNotices (s : State) (k : LineId) (code : NoticeCode) :
    s.sameButNotices (s.raiseLine k code) := by
  by_cases h : s.boundLanes k = []
  · rw [State.raiseLine_unbound h]
    exact s.raise_sameButNotices _ _ _ _
  · rw [State.raiseLine_bound h]
    exact State.raiseEach_sameButNotices _ _ _ _ s

theorem State.raiseLine_entry_bound {s : State} {k : LineId} {L : LaneId} (h : L ∈ s.boundLanes k) (code : NoticeCode)
    (p : Port) :
    ((s.raiseLine k code).port p).entries[(entryIndex code.category (some L)).val] =
      s.foldedEntry p code (some L) (s.lane L).analysis k.val := by
  rw [State.raiseLine_bound (List.ne_nil_of_mem h)]
  exact State.raiseEach_entry code _ _ _ (s.boundLanes_nodup k) s p h

theorem State.raiseLine_entry_ne (s : State) (k : LineId) (code : NoticeCode) (p : Port) (i : Fin 42)
    (hlane : ∀ L ∈ s.boundLanes k, i ≠ entryIndex code.category (some L))
    (hunit : s.boundLanes k = [] → i ≠ entryIndex code.category none) :
    ((s.raiseLine k code).port p).entries[i.val] = (s.port p).entries[i.val] := by
  by_cases h : s.boundLanes k = []
  · rw [State.raiseLine_unbound h]
    exact s.raise_entry_ne _ _ _ _ p i (hunit h)
  · rw [State.raiseLine_bound h]
    exact State.raiseEach_entry_ne code _ _ _ s p i hlane

/-- Settles O36: the counters lane by lane, and the entries of the bound lanes, of the unit, and the others. -/
theorem lineEventsReachTheBoundLanes : Obligations.LineEventsReachTheBoundLanes := by
  intro s k code c hcode bound
  have hbound : ∀ L, L ∈ s.boundLanes k ↔ bound L := s.mem_boundLanes k
  refine ⟨fun L => ⟨fun hL => ?_, fun hL => ?_⟩, s.raiseLine_sameButNotices k code, fun p => ⟨fun L hL => ?_, fun h => ?_,
    fun i hlane hunit => ?_⟩⟩
  · rw [State.countLine_lane, if_pos ((hbound L).2 hL)]
    rfl
  · rw [State.countLine_lane, if_neg (mt (hbound L).1 hL)]
  · simpa only [hcode] using State.raiseLine_entry_bound ((hbound L).2 hL) code p
  · rw [State.raiseLine_unbound ((s.boundLanes_eq_nil_iff k).2 h)]
    have hentry := s.raise_entry code none k.val k.val p
    simp only [hcode] at hentry
    exact hentry
  · refine s.raiseLine_entry_ne k code p i (fun L hL => hcode ▸ hlane L ((hbound L).1 hL)) fun hnil h => ?_
    refine hunit ((s.boundLanes_eq_nil_iff k).1 hnil) ?_
    rw [h, hcode]
    rfl

end Sys2Proof.Machine

/-! PROOF. The running of the tick counter (R109): what it passes through, what it leaves unchanged
(`State.LineFrame`), and what it leaves of the lines. The statements O3 and O33. -/

namespace Sys2Proof.Machine
open Sys2Proof

/-! ### What a line event leaves unchanged -/

/-- From `s` to `t` nothing but the tick counter, the lines, the lanes' counters, the notice entries and the number of
events has changed. -/
structure State.LineFrame (s t : State) : Prop where
  rest : t.store = s.store ∧ t.engine = s.engine ∧ t.library = s.library ∧ t.pending = s.pending
  port : ∀ p, t.port p = { s.port p with entries := (t.port p).entries }
  lane : ∀ L, t.lane L = { s.lane L with counters := (t.lane L).counters }

namespace State.LineFrame
variable {r s : State}

theorem refl (s : State) : s.LineFrame s := ⟨⟨rfl, rfl, rfl, rfl⟩, fun _ => rfl, fun _ => rfl⟩

theorem trans {t : State} (h : r.LineFrame s) (h' : s.LineFrame t) : r.LineFrame t where
  rest := by
    obtain ⟨h1, h2, h3, h4⟩ := h.rest
    obtain ⟨g1, g2, g3, g4⟩ := h'.rest
    exact ⟨g1.trans h1, g2.trans h2, g3.trans h3, g4.trans h4⟩
  port p := by
    rw [h'.port p, h.port p]
  lane L := by
    rw [h'.lane L, h.lane L]

theorem event (h : r.LineFrame s) : r.LineFrame s.event :=
  h.trans ⟨⟨rfl, rfl, rfl, rfl⟩, fun p => by rw [State.port_event], fun _ => rfl⟩

theorem setLine (h : r.LineFrame s) (k : LineId) (l : Line) : r.LineFrame (s.setLine k l) :=
  h.trans ⟨⟨rfl, rfl, rfl, rfl⟩, fun p => by rw [State.port_setLine], fun _ => rfl⟩

theorem countLine (h : r.LineFrame s) (k : LineId) (c : Ctr) : r.LineFrame (s.countLine k c) := by
  refine h.trans ⟨?_, fun p => ?_, fun L => ?_⟩
  · rw [s.countLine_rest k c]
    exact ⟨rfl, rfl, rfl, rfl⟩
  · rw [s.countLine_rest k c]
    cases p <;> rfl
  · rw [State.countLine_lane]
    split <;> rfl

theorem raiseLine (h : r.LineFrame s) (k : LineId) (c : NoticeCode) : r.LineFrame (s.raiseLine k c) := by
  have hsame := s.raiseLine_sameButNotices k c
  unfold State.sameButNotices at hsame
  refine h.trans ⟨?_, fun p => ?_, fun L => ?_⟩
  · rw [hsame]
    exact ⟨rfl, rfl, rfl, rfl⟩
  · cases p
    · exact congrArg State.portA hsame
    · exact congrArg State.portB hsame
  · rw [State.lane_congr (s.raiseLine_lanes k c)]

theorem captureEdge (h : r.LineFrame s) (k : LineId) (t : Tick) : r.LineFrame (s.captureEdge k t) := by
  unfold State.captureEdge
  dsimp only
  split
  · exact (h.setLine _ _).raiseLine _ _
  · exact h.setLine _ _

theorem takeSample (h : r.LineFrame s) (k : LineId) : r.LineFrame (s.takeSample k) := by
  unfold State.takeSample
  dsimp only
  split
  · exact (h.setLine _ _).captureEdge _ _
  · exact h.setLine _ _

theorem coastExpires (h : r.LineFrame s) (k : LineId) : r.LineFrame (s.coastExpires k) :=
  ((h.setLine _ _).countLine _ _).raiseLine _ _

theorem lostExpires (h : r.LineFrame s) (k : LineId) : r.LineFrame (s.lostExpires k) :=
  ((h.setLine _ _).countLine _ _).raiseLine _ _

theorem searchExpires (h : r.LineFrame s) (k : LineId) : r.LineFrame (s.searchExpires k) := h.setLine _ _

theorem expire (h : r.LineFrame s) (k : LineId) : r.LineFrame (s.expire k) := by
  unfold State.expire
  split
  · exact h
  · exact h.coastExpires k
  · exact h.lostExpires k
  · exact h.searchExpires k

theorem passTicks (h : r.LineFrame s) (d : Nat) : r.LineFrame (s.passTicks d) := by
  unfold State.passTicks
  split
  · exact h
  · exact h.trans ⟨⟨rfl, rfl, rfl, rfl⟩, fun p => by cases p <;> rfl, fun _ => rfl⟩

end State.LineFrame

/-! ### The tick counter -/

@[simp] theorem State.countLine_tick (s : State) (k : LineId) (c : Ctr) : (s.countLine k c).tick = s.tick := by
  rw [s.countLine_rest k c]

@[simp] theorem State.countLine_lines (s : State) (k : LineId) (c : Ctr) : (s.countLine k c).lines = s.lines := by
  rw [s.countLine_rest k c]

theorem State.sameButNotices.tick_lines {s t : State} (h : s.sameButNotices t) : t.tick = s.tick ∧ t.lines = s.lines := by
  unfold State.sameButNotices at h
  rw [h]
  exact ⟨rfl, rfl⟩

@[simp] theorem State.raiseLine_tick (s : State) (k : LineId) (c : NoticeCode) : (s.raiseLine k c).tick = s.tick :=
  (s.raiseLine_sameButNotices k c).tick_lines.1

@[simp] theorem State.raiseLine_lines (s : State) (k : LineId) (c : NoticeCode) : (s.raiseLine k c).lines = s.lines :=
  (s.raiseLine_sameButNotices k c).tick_lines.2

@[simp] theorem State.captureEdge_tick (s : State) (k : LineId) (t : Tick) : (s.captureEdge k t).tick = s.tick := by
  unfold State.captureEdge
  dsimp only
  split <;> simp

@[simp] theorem State.takeSample_tick (s : State) (k : LineId) : (s.takeSample k).tick = s.tick := by
  unfold State.takeSample
  dsimp only
  split <;> simp

@[simp] theorem State.expire_tick (s : State) (k : LineId) : (s.expire k).tick = s.tick := by
  unfold State.expire
  split
  · rfl
  · simp [State.coastExpires]
  · simp [State.lostExpires]
  · rfl

theorem State.passTicks_zero (s : State) : s.passTicks 0 = s := rfl

@[simp] theorem State.passTicks_tick (s : State) (d : Nat) : (s.passTicks d).tick = s.tick + BitVec.ofNat 24 d := by
  by_cases h : d = 0
  · subst h
    simp [State.passTicks_zero]
  · simp [State.passTicks, h]

/-! ### The running -/

/-- What holds before the counter runs and is kept by ticks in which nothing is due and by each event on the way holds
after it. -/
theorem runTicks_keeps {P : State → Prop} (hpass : ∀ s d, P s → P (s.passTicks d))
    (hsample : ∀ s k e, s.nextLineEvent = some (k, e, true) → P s → P ((s.passTicks e).event.takeSample k))
    (hexpire : ∀ s k e, s.nextLineEvent = some (k, e, false) → P s → P ((s.passTicks e).event.expire k))
    (fuel d : Nat) {s : State} (h : P s) : P (runTicks fuel d s) := by
  induction fuel generalizing d s with
  | zero => exact hpass s d h
  | succ fuel ih =>
    unfold runTicks
    split
    · exact hpass s d h
    · rename_i k e sample hnext
      split
      · exact hpass s d h
      · refine ih _ ?_
        cases sample
        · exact hexpire s k e hnext h
        · exact hsample s k e hnext h

theorem State.LineFrame.runTicks {r s : State} (h : r.LineFrame s) (fuel d : Nat) : r.LineFrame (runTicks fuel d s) :=
  runTicks_keeps (P := r.LineFrame) (fun _ d h => h.passTicks d) (fun _ k e _ h => (h.passTicks e).event.takeSample k)
    (fun _ k e _ h => (h.passTicks e).event.expire k) fuel d h

/-- Whatever falls on the way, the counter runs on by the ticks asked for. -/
theorem runTicks_tick (fuel d : Nat) (s : State) : (runTicks fuel d s).tick = s.tick + BitVec.ofNat 24 d := by
  induction fuel generalizing d s with
  | zero => exact s.passTicks_tick d
  | succ fuel ih =>
    unfold runTicks
    split
    · exact s.passTicks_tick d
    · rename_i k e sample _
      split
      · exact s.passTicks_tick d
      · rename_i hlt
        have htick : (if sample = true then (s.passTicks e).event.takeSample k else (s.passTicks e).event.expire k).tick =
            s.tick + BitVec.ofNat 24 e := by
          cases sample <;> simp
        have hsum : BitVec.ofNat 24 e + BitVec.ofNat 24 (d - e) = BitVec.ofNat 24 d := by
          rw [← BitVec.ofNat_add, Nat.add_sub_cancel' (Nat.le_of_not_le hlt)]
        rw [ih, htick, BitVec.add_assoc, hsum]

theorem State.runTo_tick (s : State) (t : Tick) : (s.runTo t).tick = t := by
  rw [State.runTo, State.event_tick, State.runFor, runTicks_tick, BitVec.ofNat_toNat, BitVec.setWidth_eq,
    BitVec.add_comm, BitVec.sub_add_cancel]

theorem State.LineFrame.runTo {r s : State} (h : r.LineFrame s) (t : Tick) : r.LineFrame (s.runTo t) :=
  (h.runTicks _ _).event

/-! ### The rows (O33) -/

/-- A line command answers the state that stands at its tick, or that state after one line event. -/
theorem exec_line_command {s : State} {k : LineId} {t : Tick} {level : Level} {c : Instr}
    (hc : c = .perforationEdge k t ∨ c = .coastTimeout k t ∨ c = .lostTimeout k t ∨ c = .searchTimeout k t ∨
      c = .filterSample k t level) :
    ∃ u, exec c s = .next u ∧ u.tick = t ∧ s.LineFrame u := by
  have htick := s.runTo_tick t
  have hrun := (State.LineFrame.refl s).runTo t
  rcases hc with rfl | rfl | rfl | rfl | rfl
  · exact ⟨_, rfl, by simpa using htick, hrun.captureEdge k t⟩
  · refine ⟨_, rfl, ?_⟩
    split
    · exact ⟨by simpa [State.coastExpires] using htick, hrun.coastExpires k⟩
    · exact ⟨htick, hrun⟩
  · refine ⟨_, rfl, ?_⟩
    split
    · exact ⟨by simpa [State.lostExpires] using htick, hrun.lostExpires k⟩
    · exact ⟨htick, hrun⟩
  · refine ⟨_, rfl, ?_⟩
    split
    · exact ⟨htick, hrun.searchExpires k⟩
    · exact ⟨htick, hrun⟩
  · refine ⟨_, rfl, ?_⟩
    dsimp only
    split
    · exact ⟨by simpa using htick, (hrun.setLine _ _).takeSample k⟩
    · exact ⟨htick, hrun.setLine _ _⟩

/-- Settles O33: the tick the counter has run to, and the frame `State.LineFrame` of the run and of the command's own
event. -/
theorem lineCommandsRunTheCounterToTheirTick : Obligations.LineCommandsRunTheCounterToTheirTick := by
  intro s k t level c hc
  obtain ⟨u, hu, htick, hframe⟩ := exec_line_command (s := s) hc
  obtain ⟨hstore, hengine, hlibrary, hpending⟩ := hframe.rest
  exact ⟨u, hu, htick, hstore, hengine, hlibrary, hpending, hframe.port, hframe.lane⟩

/-! ### The lines while the counter runs -/

/-- The line once `d` ticks have passed with nothing due in them (R109, R113). -/
def Line.passed (l : Line) (d : Nat) : Line :=
  if l.enable = true ∧ d ≠ 0 then { l with prescaler := (l.prescaler + d) % (l.n + 1), sampled := false } else l

theorem mapVec_getElem {α β : Type} {n : Nat} (f : α → β) (v : Vector α n) (i : Fin n) :
    (mapVec f v)[i.val] = f v[i.val] := by
  simp [mapVec]

theorem State.passTicks_line (s : State) (d : Nat) (k : LineId) : (s.passTicks d).line k = (s.line k).passed d := by
  by_cases hd : d = 0
  · subst hd
    simp [State.passTicks_zero, Line.passed]
  · have hlines : (s.passTicks d).lines = mapVec (fun l =>
        if l.enable then { l with prescaler := (l.prescaler + d) % (l.n + 1), sampled := false } else l) s.lines := by
      rw [State.passTicks, if_neg hd]
    rw [State.line, hlines, mapVec_getElem]
    simp [Line.passed, hd, State.line]

theorem Line.passed_enable (l : Line) (d : Nat) : (l.passed d).enable = l.enable := by
  unfold Line.passed
  split <;> rfl

theorem Line.passed_off {l : Line} (h : l.enable = false) (d : Nat) : l.passed d = l := by
  simp [Line.passed, h]

/-- The line event chosen is the next of its line. -/
theorem State.nextLineEvent_some {s : State} {k : LineId} {e : Nat} {sample : Bool}
    (h : s.nextLineEvent = some (k, e, sample)) : (s.line k).untilEvent s.tick = some (e, sample) := by
  suffices hall : ∀ x, s.nextLineEvent = some x → (s.line x.1).untilEvent s.tick = some x.2 from hall _ h
  unfold State.nextLineEvent
  refine List.foldlRecOn (motive := fun best : Option (LineId × Nat × Bool) =>
    ∀ x, best = some x → (s.line x.1).untilEvent s.tick = some x.2) _ _ (by simp) fun best ih j _ x hx => ?_
  split at hx
  · exact ih x hx
  · rename_i d w hj
    cases hx
    exact hj
  · rename_i d w i e' v hj
    split at hx
    · cases hx
      exact hj
    · exact ih x hx

theorem Line.untilEvent_enable {l : Line} {now : Tick} {x : Nat × Bool} (h : l.untilEvent now = some x) :
    l.enable = true := by
  by_contra hoff
  simp [Line.untilEvent, hoff] at h

/-- The next event is a filter sample that would change the line, at its own tick, or the line's timeout. -/
theorem Line.untilEvent_cases {l : Line} {now : Tick} {e : Nat} {sample : Bool}
    (h : l.untilEvent now = some (e, sample)) :
    (sample = true ∧ e = l.untilSample ∧ l.sampleMatters = true) ∨
      (sample = false ∧ ∃ d, l.deadline = some d ∧ e = (d - now).toNat) := by
  have htimeout : (l.deadline.map fun d => ((d - now).toNat, false)) = some (e, sample) →
      sample = false ∧ ∃ d, l.deadline = some d ∧ e = (d - now).toNat := by
    simp only [Option.map_eq_some_iff, Prod.mk.injEq]
    rintro ⟨d, hd, he, hs⟩
    exact ⟨hs.symm, d, hd, he.symm⟩
  simp only [Line.untilEvent, Line.untilEvent_enable h, if_true, Option.map_map] at h
  split at h
  · rename_i hm
    split at h
    · rename_i d hd
      obtain ⟨x, hx, rfl⟩ := Option.map_eq_some_iff.1 hd
      split at h <;> cases h
      · exact .inl ⟨rfl, rfl, hm⟩
      · exact .inr ⟨rfl, x, hx, rfl⟩
    · cases h
      exact .inl ⟨rfl, rfl, hm⟩
  · exact .inr (htimeout h)

end Sys2Proof.Machine

/-! PROOF. Line events, one by one: the edge in each state of the line (R115 to R119), the filter sample (R113, R114) and
the timeouts (R118, R120), as equations of the line, and the rows that take them. The statements O34, O35 and O37. -/

namespace Sys2Proof.Machine
open Sys2Proof

/-! ### Updates of a line -/

theorem State.setLine_setLine (s : State) (k : LineId) (l m : Line) : (s.setLine k l).setLine k m = s.setLine k m := by
  simp [State.setLine]

theorem State.setLine_line (s : State) (k : LineId) : s.setLine k (s.line k) = s := by
  simp [State.setLine, State.line]

/-! ### The edge (R115 to R119) -/

section
variable {l : Line} {t : Tick}

theorem Line.accept_eq (l : Line) (t : Tick) : l.accept t =
    { l with
      reference := some t
      silence := t
      tc := l.tPending.elim l.tc Prod.fst
      tl := l.tPending.elim l.tl Prod.snd
      tPending := none } := by
  simp [Line.accept, Option.map_getD_eq_elim]

theorem Line.edge_disabled (h : l.state = .disabled) : l.edge t = (l, false) := by
  simp [Line.edge, h]

/-- The first edge since the line entered COAST gives no period (R119). -/
theorem Line.edge_coastFirst (h : l.state = .coast) (hc : l.coastEdge = false) :
    l.edge t = ({ l.accept t with coastEdge := true }, false) := by
  simp [Line.edge, h, hc]

variable (hd : l.state ≠ .disabled) (hc : ¬(l.state = .coast ∧ l.coastEdge = false))
include hd hc

theorem Line.edge_noReference (h : l.reference = none) : l.edge t = (l.accept t, false) := by
  simp only [Line.edge, if_neg hd, if_neg hc, h]

theorem Line.edge_short {r : Tick} (h : l.reference = some r) (hp : (t - r).toNat < 4096) : l.edge t = (l, false) := by
  simp only [Line.edge, if_neg hd, if_neg hc, h]
  exact if_pos hp

end

section
variable {l : Line} {t r : Tick} (h : l.reference = some r) (hp : 4096 ≤ (t - r).toNat)
include h hp

theorem Line.edge_searching (hs : l.state = .searching) : l.edge t = (l.accept t).search (t - r).toNat := by
  simp [Line.edge, h, hs, Config.minPeriod, Nat.not_lt.2 hp, -BitVec.toNat_sub]

theorem Line.edge_tracking (hs : l.state = .tracking) :
    l.edge t = ({ l.accept t with ps := smoothed l.ps (t - r).toNat }, false) := by
  simp [Line.edge, h, hs, Config.minPeriod, Nat.not_lt.2 hp, -BitVec.toNat_sub]

theorem Line.edge_coast (hs : l.state = .coast) (hc : l.coastEdge = true) : l.edge t =
    ({ l.accept t with ps := smoothed l.ps (t - r).toNat, state := .tracking, coastEdge := false }, true) := by
  simp [Line.edge, h, hs, hc, Config.minPeriod, Nat.not_lt.2 hp, -BitVec.toNat_sub]

end

/-! ### The agreeing run (R116) -/

section
variable {l : Line} {p : Nat}

theorem Line.search_first (h : l.recent = []) : l.search p = ({ l with recent := [p] }, false) := by
  simp [Line.search, h]

variable {last : Nat} (h : l.recent.getLast? = some last)
include h

theorem Line.search_third (ha : agrees last p = true) (hn : l.recent.length = 2) :
    l.search p = ({ l with state := .tracking, ps := p, recent := [] }, true) := by
  simp only [Line.search, h, ha, hn, if_true]

theorem Line.search_second (ha : agrees last p = true) (hn : l.recent.length ≠ 2) :
    l.search p = ({ l with recent := l.recent ++ [p] }, false) := by
  simp only [Line.search, h, ha, if_true, if_neg hn]

theorem Line.search_again (ha : agrees last p = false) : l.search p = ({ l with recent := [p] }, false) := by
  simp [Line.search, h, ha]

end

/-! ### The edge handled -/

theorem State.captureEdge_becomes {s : State} {k : LineId} {t : Tick} {m : Line}
    (h : (s.line k).edge t = (m, false)) : s.captureEdge k t = s.setLine k m := by
  simp [State.captureEdge, h]

theorem State.captureEdge_locks {s : State} {k : LineId} {t : Tick} {m : Line}
    (h : (s.line k).edge t = (m, true)) : s.captureEdge k t = (s.setLine k m).raiseLine k .lineTracking := by
  simp [State.captureEdge, h]

/-- Settles O34: the equation of the edge for each state of the line. -/
theorem perforationEdgeIsCaptured : Obligations.PerforationEdgeIsCaptured := by
  intro s k t u l accepted becomes locks smooth
  have hacc : l.accept t = accepted := l.accept_eq t
  have hbecomes : ∀ {m}, l.edge t = (m, false) → becomes m := fun h =>
    congrArg Host.Outcome.next (State.captureEdge_becomes h)
  have hlocks : ∀ {m}, l.edge t = (m, true) → locks m := fun h =>
    congrArg Host.Outcome.next (State.captureEdge_locks h)
  refine ⟨fun h => hbecomes (Line.edge_disabled h), fun h hc => hbecomes (hacc ▸ Line.edge_coastFirst h hc),
    fun hd hc => ⟨fun h => hbecomes (hacc ▸ Line.edge_noReference hd hc h), fun r hr => ?_⟩⟩
  intro period
  refine ⟨fun hp => hbecomes (Line.edge_short hd hc hr hp), fun hp => ?_⟩
  refine ⟨fun hs => ?_, fun hs => hbecomes (hacc ▸ Line.edge_tracking hr hp hs), fun hs => hlocks (hacc ▸ ?_)⟩
  · have hedge : l.edge t = accepted.search period := hacc ▸ Line.edge_searching hr hp hs
    refine ⟨fun hrecent => hbecomes (hedge.trans (Line.search_first hrecent)), fun last hlast => ?_⟩
    intro agreeing
    have hagrees : agrees last period = true ↔ agreeing := decide_eq_true_iff
    exact ⟨fun ha hn => hlocks (hedge.trans (Line.search_third hlast (hagrees.2 ha) hn)),
      fun ha hn => hbecomes (hedge.trans (Line.search_second hlast (hagrees.2 ha) hn)),
      fun ha => hbecomes (hedge.trans (Line.search_again hlast (Bool.eq_false_iff.2 (mt hagrees.1 ha))))⟩
  · exact Line.edge_coast hr hp hs (by simpa [hs] using hc)

/-! ### The filter sample (R113, R114) -/

theorem Line.sampleDue_iff (l : Line) : l.sampleDue = true ↔ l.enable = true ∧ l.prescaler = 0 ∧ l.sampled = false := by
  simp [Line.sampleDue, and_assoc]

/-- The line whose sample is taken, before the level is judged: a pending n is current (R113). -/
def Line.sampling (l : Line) : Line := { l with n := l.nPending.getD l.n, nPending := none, sampled := true }

section
variable {l : Line}

theorem Line.sample_unknown (h : l.settled = none) :
    l.sample = ({ l.sampling with settled := some l.input, run := 0 }, false) := by
  simp [Line.sample, Line.sampling, h]

variable {v : Level} (h : l.settled = some v)
include h

theorem Line.sample_equal (hv : v = l.input) : l.sample = ({ l.sampling with run := 0 }, false) := by
  simp [Line.sample, Line.sampling, h, hv]

theorem Line.sample_opposite (hv : v ≠ l.input) (hr : l.run ≠ 2) :
    l.sample = ({ l.sampling with run := l.run + 1 }, false) := by
  simp [Line.sample, Line.sampling, h, hv.symm, hr]

theorem Line.sample_turned (hv : v ≠ l.input) (hr : l.run = 2) :
    l.sample = ({ l.sampling with settled := some l.input, run := 0 }, isEdge l.sense l.input) := by
  simp [Line.sample, Line.sampling, h, hv.symm, hr]

end

theorem isEdge_iff (sense : Sense) (level : Level) :
    isEdge sense level = true ↔ (sense = .rising ∧ level = .high) ∨ (sense = .falling ∧ level = .low) := by
  cases sense <;> cases level <;> simp [isEdge]

theorem State.takeSample_becomes {s : State} {k : LineId} {m : Line} (h : (s.line k).sample = (m, false)) :
    s.takeSample k = s.setLine k m := by
  simp [State.takeSample, h]

theorem State.takeSample_edge {s : State} {k : LineId} {m : Line} (h : (s.line k).sample = (m, true)) :
    s.takeSample k = (s.setLine k m).captureEdge k s.tick := by
  simp [State.takeSample, h]

theorem exec_filterSample (k : LineId) (t : Tick) (level : Level) (s : State) :
    exec (.filterSample k t level) s =
      let v := (s.runTo t).setLine k { (s.runTo t).line k with input := level }
      .next (if (v.line k).sampleDue then v.takeSample k else v) := rfl

/-- Settles O37: the equation of the sample for each judgement of the level, the line standing at the level given. -/
theorem filterSampleJudgesTheLevel : Obligations.FilterSampleJudgesTheLevel := by
  intro s k t level u l sampled becomes
  have hline : (u.setLine k l).line k = l := State.line_setLine_same _ _ _
  have hset : ∀ m, (u.setLine k l).setLine k m = u.setLine k m := fun m => State.setLine_setLine _ _ _ _
  have hidle : l.sampleDue = false → becomes l := fun h => by
    refine (exec_filterSample k t level s).trans (congrArg Host.Outcome.next (if_neg ?_))
    rw [hline, h]
    exact Bool.false_ne_true
  refine ⟨fun h => hidle (Bool.eq_false_iff.2 (mt l.sampleDue_iff.1 h)), fun he hp hs => ?_⟩
  have hexec : exec (.filterSample k t level) s = .next ((u.setLine k l).takeSample k) := by
    refine (exec_filterSample k t level s).trans (congrArg Host.Outcome.next (if_pos ?_))
    rw [hline]
    exact l.sampleDue_iff.2 ⟨he, hp, hs⟩
  have hbecomes : ∀ {m}, l.sample = (m, false) → becomes m := fun {m} h => by
    rw [← hline] at h
    refine hexec.trans (congrArg Host.Outcome.next ?_)
    rw [State.takeSample_becomes h, hset]
  refine ⟨fun h => hbecomes (Line.sample_unknown h), fun v hv => ⟨fun h => hbecomes (Line.sample_equal hv h),
    fun h hr => hbecomes (Line.sample_opposite hv h hr), fun h hr => ?_⟩⟩
  intro turned edge
  have hsample : l.sample = ({ sampled with settled := some level, run := 0 }, isEdge l.sense level) :=
    Line.sample_turned hv h hr
  have hedge : isEdge l.sense level = true ↔ edge := isEdge_iff _ _
  refine ⟨fun h => hbecomes (hsample.trans (Prod.ext rfl (Bool.eq_false_iff.2 (mt hedge.1 h)))), fun h => ?_⟩
  rw [hedge.2 h] at hsample
  refine hexec.trans (congrArg Host.Outcome.next ?_)
  rw [State.takeSample_edge ((congrArg Line.sample hline).trans hsample), hset, State.setLine_tick, State.runTo_tick]

/-! ### The timeouts (R118, R120) -/

theorem Line.timeoutDue_iff (l : Line) (st : LineState) (t : Tick) :
    l.timeoutDue st t = true ↔ l.state = st ∧ l.deadline = some t := by
  simp [Line.timeoutDue]

theorem Line.timeoutDue_tracking (l : Line) (t : Tick) :
    l.timeoutDue .tracking t = true ↔ l.state = .tracking ∧ l.silence + BitVec.ofNat 24 (l.tc * 65536) = t := by
  rw [Line.timeoutDue_iff]
  refine and_congr_right fun h => ?_
  simp [Line.deadline, h, Config.timeoutUnit]

theorem Line.timeoutDue_coast (l : Line) (t : Tick) :
    l.timeoutDue .coast t = true ↔ l.state = .coast ∧ l.silence + BitVec.ofNat 24 (l.tl * 65536) = t := by
  rw [Line.timeoutDue_iff]
  refine and_congr_right fun h => ?_
  simp [Line.deadline, h, Config.timeoutUnit]

theorem Line.timeoutDue_searching (l : Line) (t : Tick) :
    l.timeoutDue .searching t = true ↔ l.state = .searching ∧ l.silence + BitVec.ofNat 24 (l.tl * 65536) = t := by
  rw [Line.timeoutDue_iff]
  refine and_congr_right fun h => ?_
  simp [Line.deadline, h, Config.timeoutUnit]

/-- Settles O35: each row acts exactly if its timeout is due, at the tick the counter has run to. -/
theorem lineTimeoutsExpire : Obligations.LineTimeoutsExpire := by
  intro s k t u l at_ restarted
  have htick : u.tick = t := s.runTo_tick t
  refine ⟨congrArg Host.Outcome.next ?_, congrArg Host.Outcome.next ?_, congrArg Host.Outcome.next ?_⟩
  · exact if_congr (l.timeoutDue_tracking t) rfl rfl
  · refine if_congr (l.timeoutDue_coast t) ?_ rfl
    rw [State.lostExpires, htick]
  · refine if_congr (l.timeoutDue_searching t) ?_ rfl
    rw [State.searchExpires, htick]

end Sys2Proof.Machine

/-! PROOF. A step on an empty queue (R109): a tick on which no line event is due, and what any tick leaves of the lines
that are not enabled. The statement O3. -/

namespace Sys2Proof.Machine
open Sys2Proof

/-! ### A tick on which nothing is due -/

theorem Line.untilSample_eq_zero {l : Line} (hr : l.prescaler ≤ l.n) (h : l.untilSample = 0) :
    l.prescaler = 0 ∧ l.sampled = false := by
  unfold Line.untilSample at h
  split at h
  · rename_i hp
    cases hs : l.sampled
    · exact ⟨hp, rfl⟩
    · simp [hs] at h
  · omega

/-- An event of the present tick is a due sample that would change the line, or a due timeout. -/
theorem Line.untilEvent_zero {l : Line} {now : Tick} {sample : Bool} (hr : l.prescaler ≤ l.n)
    (h : l.untilEvent now = some (0, sample)) :
    (l.sampleDue = true ∧ l.sampleMatters = true) ∨ l.deadline = some now := by
  rcases Line.untilEvent_cases h with ⟨-, he, hm⟩ | ⟨-, d, hd, he⟩
  · obtain ⟨hp, hs⟩ := Line.untilSample_eq_zero hr he.symm
    exact .inl ⟨l.sampleDue_iff.2 ⟨Line.untilEvent_enable h, hp, hs⟩, hm⟩
  · have hnow : d = now := by bv_omega
    exact .inr (hnow ▸ hd)

/-- Where the next line event is no earlier than the tick arrived at, the ticks pass with nothing due in them. -/
theorem runTicks_quiet {s : State} {d : Nat} (h : ∀ k e sample, s.nextLineEvent = some (k, e, sample) → d ≤ e)
    (fuel : Nat) : runTicks fuel d s = s.passTicks d := by
  cases fuel with
  | zero => rfl
  | succ fuel =>
    unfold runTicks
    split
    · rfl
    · rename_i k e sample hnext
      exact if_pos (h k e sample hnext)

/-! ### The lines after an event -/

theorem State.captureEdge_lines (s : State) (k : LineId) (t : Tick) :
    (s.captureEdge k t).lines = (s.setLine k ((s.line k).edge t).1).lines := by
  unfold State.captureEdge
  dsimp only
  split
  · exact State.raiseLine_lines _ _ _
  · rfl

theorem State.line_congr {s t : State} (h : t.lines = s.lines) (k : LineId) : t.line k = s.line k := by
  simp only [State.line, h]

/-- The line after its filter sample, with the edge it may make at tick `t` (R113 to R119). -/
def Line.sampledAt (l : Line) (t : Tick) : Line := if l.sample.2 then (l.sample.1.edge t).1 else l.sample.1

theorem State.takeSample_lines (s : State) (k : LineId) :
    (s.takeSample k).lines = (s.setLine k ((s.line k).sampledAt s.tick)).lines := by
  unfold State.takeSample Line.sampledAt
  dsimp only
  split
  · rw [State.captureEdge_lines, State.line_setLine_same, State.setLine_setLine]
  · rfl

/-- The line after the timeout of its state at tick `t` (R118, R120). -/
def Line.expired (l : Line) (t : Tick) : Line :=
  match l.state with
  | .disabled => l
  | .tracking => { l with state := .coast, coastEdge := false }
  | .coast =>
    { l with state := .searching, reference := none, recent := [], ps := 0, silence := t, coastEdge := false }
  | .searching => { l with reference := none, recent := [], silence := t }

theorem State.expire_lines (s : State) (k : LineId) :
    (s.expire k).lines = (s.setLine k ((s.line k).expired s.tick)).lines := by
  unfold State.expire Line.expired
  cases h : (s.line k).state
  · simp [State.setLine_line]
  · simp [State.searchExpires, h]
  · simp [State.coastExpires]
  · simp [State.lostExpires]

/-! ### Lines that are not enabled -/

/-- While the counter runs, a line that is not enabled stands. -/
theorem runTicks_line_off (s : State) (k : LineId) (h : (s.line k).enable = false) (fuel d : Nat) :
    (runTicks fuel d s).line k = s.line k := by
  have hother : ∀ {t : State} {j : LineId} {e : Nat} {sample : Bool}, t.line k = s.line k →
      t.nextLineEvent = some (j, e, sample) → ∀ l, (((t.passTicks e).event).setLine j l).line k = s.line k := by
    intro t j e sample ht hnext l
    have hj : k ≠ j := by
      rintro rfl
      have hon := Line.untilEvent_enable (State.nextLineEvent_some hnext)
      rw [ht, h] at hon
      cases hon
    rw [State.line_setLine_ne _ _ _ _ hj, State.line_event, State.passTicks_line, ht, Line.passed_off h]
  refine runTicks_keeps (P := fun t => t.line k = s.line k) (fun t d ht => ?_) (fun t j e hnext ht => ?_)
    (fun t j e hnext ht => ?_) fuel d rfl
  · rw [State.passTicks_line, ht, Line.passed_off h]
  · rw [State.line_congr (State.takeSample_lines _ _)]
    exact hother ht hnext _
  · rw [State.line_congr (State.expire_lines _ _)]
    exact hother ht hnext _

/-- Settles O3: the frame and the tick of the running counter for one tick, and the tick in which nothing is due. -/
theorem emptyQueueStepIsOneTick : Obligations.EmptyQueueStepIsOneTick := by
  intro s hpending
  have hstep : step s = .next (s.runFor 1) := by
    unfold step
    rw [hpending]
  refine ⟨?_, fun hquiet => ?_⟩
  · have hframe := (State.LineFrame.refl s).runTicks 1024 1
    obtain ⟨hstore, hengine, hlibrary, hpend⟩ := hframe.rest
    exact ⟨_, hstep, runTicks_tick _ _ _, hstore, hengine, hlibrary, hpend.trans hpending, hframe.port, hframe.lane,
      fun k hk => runTicks_line_off s k hk _ _⟩
  · have hpass : s.runFor 1 = s.passTicks 1 := by
      refine runTicks_quiet (fun k e sample hnext => Nat.pos_of_ne_zero ?_) _
      rintro rfl
      have hevent := State.nextLineEvent_some hnext
      obtain ⟨⟨-, -, -, -, -, -, -, -, hprescaler, -⟩, hdue⟩ := hquiet k
      obtain ⟨hsample, htimeout⟩ := hdue (Line.untilEvent_enable hevent)
      exact (Line.untilEvent_zero hprescaler hevent).elim hsample htimeout
    rw [hstep, hpass]
    rfl

end Sys2Proof.Machine

/-! PROOF. TRANSPORT SETUP (R111, R112, R185): the line after it by its state and the enable carried, the clamped
timeouts and the report byte by byte. The statement O32. -/

namespace Sys2Proof.Machine
open Sys2Proof

/-! ### The operands -/

theorem lineOf_of_toNat {b : Byte} {k : LineId} (h : b.toNat = k.val) : lineOf b = some k := by
  unfold lineOf
  rw [dif_pos (h ▸ k.isLt)]
  exact congrArg some (Fin.ext h)

theorem lineOf_none {b : Byte} (h : 3 < b.toNat) : lineOf b = none := by
  unfold lineOf
  rw [dif_neg (by omega)]

theorem onOff_none {b : Byte} (h : 1 < b.toNat) : onOff b = none := by
  cases hb : onOff b with
  | none => rfl
  | some r => exact absurd (onOff_le hb) (Nat.not_le.2 h)

theorem senseOf_eq {b : Byte} (h : b.toNat ≤ 1) : senseOf b = some (if b = 0#8 then .rising else .falling) := by
  rcases Byte.eq_zero_or_one h with rfl | rfl <;> rfl

theorem senseOf_none {b : Byte} (h : 1 < b.toNat) : senseOf b = none := by
  have h0 : b ≠ 0#8 := by
    rintro rfl
    simp at h
  have h1 : b ≠ 1#8 := by
    rintro rfl
    simp at h
  simp [senseOf, h0, h1]

/-- Tc and Tl brought into range (R111). -/
theorem clampTimeouts_eq (tc tl : Nat) :
    clampTimeouts tc tl = (max 1 (min 254 tc), max (max 1 (min 254 tc) + 1) (max 2 tl)) := by
  unfold clampTimeouts
  dsimp only
  refine Prod.ext (by dsimp only; omega) ?_
  dsimp only
  split <;> omega

/-! ### The line after the request (R112) -/

section
variable {l : Line} (now : Tick) (sense : Sense) (n tc tl : Nat)

/-- An enabled line stays enabled: the sense at once, n and the timeouts pending. -/
theorem Line.setup_change (h : l.enable = true) : l.setup now true sense n tc tl =
    { l with
      sense := sense
      reference := if sense = l.sense then l.reference else none
      recent := if sense = l.sense then l.recent else []
      nPending := if n = l.n then none else some n
      tPending := if tc = l.tc ∧ tl = l.tl then none else some (tc, tl) } := by
  by_cases hs : sense = l.sense
  · subst hs
    simp [Line.setup, h, Line.setSense, Line.setN, Line.setTimeouts]
  · simp [Line.setup, h, Line.setSense, Line.setN, Line.setTimeouts, hs, Ne.symm hs]

/-- An enabled line is turned off. -/
theorem Line.setup_off (h : l.enable = true) :
    l.setup now false sense n tc tl = l.disable.settings sense n tc tl := by
  simp [Line.setup, h]

/-- A DISABLED line is turned on. -/
theorem Line.setup_start (h : l.enable = false) :
    l.setup now true sense n tc tl = (l.settings sense n tc tl).start now := by
  simp [Line.setup, h]

/-- A DISABLED line takes its settings. -/
theorem Line.setup_stay (h : l.enable = false) : l.setup now false sense n tc tl = l.settings sense n tc tl := by
  simp [Line.setup, h]

end

/-! ### The report (R185) -/

/-- The report of line `k` standing as `l`, with the tick counter at `now`. -/
def Line.report (l : Line) (k : LineId) (now : Tick) : List Byte :=
  [0x20#8, BitVec.ofNat 8 k.val, l.state.byte] ++ beBytes 3 l.ps ++ beBytes 3 (l.reference.elim 0 BitVec.toNat) ++
    beBytes 3 l.silence.toNat ++ beBytes 3 now.toNat ++
    [BitVec.ofNat 8 l.recent.length, BitVec.ofNat 8 l.n, BitVec.ofNat 8 (l.nPending.getD 0), BitVec.ofNat 8 l.tc,
      BitVec.ofNat 8 (l.tPending.elim 0 Prod.fst), BitVec.ofNat 8 l.tl, BitVec.ofNat 8 (l.tPending.elim 0 Prod.snd),
      BitVec.ofNat 8 ((if l.reference = none then 1 else 0) + (if l.nPending = none then 2 else 0) +
        if l.tPending = none then 4 else 0)]

theorem State.lineReport_eq (s : State) (k : LineId) : s.lineReport k = (s.line k).report k s.tick := by
  simp only [State.lineReport, Line.report, Line.absence, natByte, Option.map_getD_eq_elim, Option.isNone_iff_eq_none]

/-! ### The request -/

section
variable {s : State} (p : Port) (tag : Half) (lane : Byte) {a : TransportArgs} {k : LineId}

theorem State.transportSetup_noLine (h : 3 < a.line.toNat) :
    s.transportSetup p tag lane a = s.replied p tag lane .range (0x20#8 :: List.replicate 22 0#8) := by
  simp only [State.transportSetup, lineOf_none h]
  rfl

variable (hk : a.line.toNat = k.val)
include hk

/-- Report-only changes nothing. -/
theorem State.transportSetup_report (h : a.report ≠ 0#8) :
    s.transportSetup p tag lane a = s.replied p tag lane .done ((s.line k).report k s.tick) := by
  simp only [State.transportSetup, lineOf_of_toNat hk, if_neg h, State.lineReport_eq]
  rfl

/-- An undefined enable or sense is refused. -/
theorem State.transportSetup_undefined (h : a.report = 0#8) (hu : 1 < a.enable.toNat ∨ 1 < a.sense.toNat) :
    s.transportSetup p tag lane a = s.replied p tag lane .range (0x20#8 :: List.replicate 22 0#8) := by
  simp only [State.transportSetup, lineOf_of_toNat hk, if_pos h]
  rcases hu with hu | hu
  · rw [onOff_none hu]
    rfl
  · rw [senseOf_none hu]
    cases onOff a.enable <;> rfl

theorem State.transportSetup_sets (h : a.report = 0#8) (he : a.enable.toNat ≤ 1) (hs : a.sense.toNat ≤ 1) {tc tl : Nat}
    (ht : clampTimeouts a.tc.toNat a.tl.toNat = (tc, tl)) {after : Line}
    (hafter : (s.line k).setup s.tick (decide (a.enable = 1#8)) (if a.sense = 0#8 then .rising else .falling) a.n.toNat
      tc tl = after) :
    s.transportSetup p tag lane a = (s.setLine k after).replied p tag lane
      (if tc = a.tc.toNat ∧ tl = a.tl.toNat then .done else .clamped) (after.report k s.tick) := by
  simp only [State.transportSetup, lineOf_of_toNat hk, if_pos h, onOff_eq he, senseOf_eq hs, ht, hafter,
    State.lineReport_eq, State.line_setLine_same, State.setLine_tick]
  rfl

end

theorem exec_transportSetup {s : State} {p : Port} {tag : Half} {lane : Byte} {a : TransportArgs} {rest : List Entry}
    (h : s.offers p (.whole tag lane (.transportSetup a)) rest) :
    exec (.transportSetup p tag lane a) s = .next ((s.took p rest).transportSetup p tag lane a) :=
  State.take_offers h (·.transportSetup p tag lane a)

/-- Settles O32: the refusals, report-only, and the four cases of the line's state and the enable carried. -/
theorem transportSetupSetsTheLine : Obligations.TransportSetupSetsTheLine := by
  intro s p tag lane a rest hoffers refused
  have hexec := exec_transportSetup hoffers
  refine ⟨fun h => hexec.trans (congrArg _ (State.transportSetup_noLine p tag lane h)), fun k hk => ?_⟩
  intro report
  have hreport : ∀ l : Line, l.report k (s.took p rest).tick = report l := fun l => by
    rw [State.took_tick]
    rfl
  refine ⟨fun h => ?_, fun h hu => hexec.trans (congrArg _ (State.transportSetup_undefined p tag lane hk h hu)),
    fun h he hs => ?_⟩
  · rw [hexec, State.transportSetup_report p tag lane hk h, hreport, State.took_line]
  · intro l sense n tc tl after
    have hafter : ((s.took p rest).line k).setup (s.took p rest).tick (decide (a.enable = 1#8)) sense n tc tl =
        after := by
      rw [State.took_line, State.took_tick]
      by_cases hline : l.enable = true
      · have hl : after = if a.enable = 1#8 then _ else _ := if_pos hline
        by_cases hon : a.enable = 1#8
        · rw [hl, if_pos hon, decide_eq_true hon]
          exact Line.setup_change _ _ _ _ _ hline
        · rw [hl, if_neg hon, decide_eq_false hon]
          exact Line.setup_off _ _ _ _ _ hline
      · have hl : after = if a.enable = 1#8 then _ else _ := if_neg hline
        have hoff : l.enable = false := Bool.eq_false_iff.2 hline
        by_cases hon : a.enable = 1#8
        · rw [hl, if_pos hon, decide_eq_true hon]
          exact Line.setup_start _ _ _ _ _ hoff
        · rw [hl, if_neg hon, decide_eq_false hon]
          exact Line.setup_stay _ _ _ _ _ hoff
    rw [hexec, State.transportSetup_sets p tag lane hk h he hs (clampTimeouts_eq _ _) hafter, hreport]

end Sys2Proof.Machine

/-! PROOF. The ranges of a line record (R110, R111, R115) as a structure, and each change of a line inside them: the
edge, the filter sample, the timeouts, the passing of ticks and TRANSPORT SETUP. -/

namespace Sys2Proof.Machine
open Sys2Proof

/-! ### The ranges, field by field -/

/-- `Line.inRange` with its parts named. -/
structure Line.Ranged (l : Line) : Prop where
  off : l.state = .disabled ↔ l.enable = false
  n : l.n ≤ 255
  nPending : ∀ n, l.nPending = some n → n ≤ 255
  timeouts : 1 ≤ l.tc ∧ l.tc ≤ 254 ∧ l.tc < l.tl ∧ l.tl ≤ 255
  tPending : ∀ c t, l.tPending = some (c, t) → 1 ≤ c ∧ c ≤ 254 ∧ c < t ∧ t ≤ 255
  prescaler : l.prescaler ≤ l.n
  run : l.run ≤ 2
  recent : l.recent.length ≤ 2
  disabled : l.state = .disabled →
    l.prescaler = 0 ∧ l.settled = none ∧ l.run = 0 ∧ l.reference = none ∧ l.recent = []
  ps : if l.state = .tracking ∨ l.state = .coast then 4096 ≤ l.ps ∧ l.ps < 16777216 else l.ps = 0

theorem Line.inRange_iff_ranged (l : Line) : l.inRange ↔ l.Ranged := by
  constructor
  · rintro ⟨hoff, hn, hnp, h1, h2, h3, h4, htp, hpre, hrun, hrec, hdis, hps⟩
    exact ⟨hoff, hn, hnp, ⟨h1, h2, h3, h4⟩, htp, hpre, hrun, hrec, hdis, hps⟩
  · rintro ⟨hoff, hn, hnp, ⟨h1, h2, h3, h4⟩, htp, hpre, hrun, hrec, hdis, hps⟩
    exact ⟨hoff, hn, hnp, h1, h2, h3, h4, htp, hpre, hrun, hrec, hdis, hps⟩

namespace Line.Ranged
variable {l : Line} (h : l.Ranged)
include h

theorem ps_locked (hs : l.state = .tracking ∨ l.state = .coast) : 4096 ≤ l.ps ∧ l.ps < 16777216 := by
  simpa only [if_pos hs] using h.ps

theorem enable_of_state (hs : l.state ≠ .disabled) : l.enable = true :=
  Bool.not_eq_false _ ▸ mt h.off.2 hs

theorem state_of_enable (he : l.enable = true) : l.state ≠ .disabled := fun hs => by
  rw [h.off.1 hs] at he
  cases he

/-! ### The edge (R115 to R119) -/

theorem accept (hd : l.state ≠ .disabled) (t : Tick) : (l.accept t).Ranged :=
  { h with
    timeouts := by
      cases hp : l.tPending with
      | none => simpa [Line.accept, hp] using h.timeouts
      | some p => simpa [Line.accept, hp] using h.tPending p.1 p.2 hp
    tPending := fun _ _ hp => by cases hp
    disabled := fun hs => absurd hs hd }

/-- A line out of SEARCHING and DISABLED holds any P_s of its range. -/
theorem locked {m : Line} (hm : m = { l with ps := m.ps, state := m.state, coastEdge := m.coastEdge, recent := m.recent })
    (hd : l.state ≠ .disabled) (hs : m.state = .tracking ∨ m.state = .coast) (hr : m.recent.length ≤ 2)
    (hps : 4096 ≤ m.ps ∧ m.ps < 16777216) : m.Ranged := by
  have hmd : m.state ≠ .disabled := by rcases hs with hs | hs <;> simp [hs]
  have hfields : ({ l with ps := m.ps, state := m.state, coastEdge := m.coastEdge, recent := m.recent } : Line).Ranged :=
    { h with
      off := ⟨fun hx => absurd hx hmd, fun hx => absurd (h.off.2 hx) hd⟩
      recent := hr
      disabled := fun hx => absurd hx hmd
      ps := (if_pos hs).symm ▸ hps }
  rw [hm]
  exact hfields

theorem withRecent (hd : l.state ≠ .disabled) {ps : List Nat} (hr : ps.length ≤ 2) : { l with recent := ps }.Ranged :=
  { h with recent := hr, disabled := fun hs => absurd hs hd }

theorem search (hs : l.state = .searching) {p : Nat} (hp : 4096 ≤ p ∧ p < 16777216) : (l.search p).1.Ranged := by
  have hd : l.state ≠ .disabled := by simp [hs]
  cases hlast : l.recent.getLast? with
  | none =>
    rw [Line.search_first (List.getLast?_eq_none_iff.1 hlast)]
    exact h.withRecent hd (by simp)
  | some last =>
    cases ha : agrees last p with
    | false =>
      rw [Line.search_again hlast ha]
      exact h.withRecent hd (by simp)
    | true =>
      by_cases hn : l.recent.length = 2
      · rw [Line.search_third hlast ha hn]
        exact h.locked rfl hd (.inl rfl) (by simp) hp
      · rw [Line.search_second hlast ha hn]
        refine h.withRecent hd ?_
        have := h.recent
        simp only [List.length_append, List.length_singleton]
        omega

omit h in
/-- A smoothed period lies between the two it is made from (R117). -/
theorem smoothed_range {ps p : Nat} (hs : 4096 ≤ ps ∧ ps < 16777216) (hp : 4096 ≤ p ∧ p < 16777216) :
    4096 ≤ smoothed ps p ∧ smoothed ps p < 16777216 := by
  simp only [smoothed, asr]
  omega

theorem edge (t : Tick) : (l.edge t).1.Ranged := by
  by_cases hd : l.state = .disabled
  · rw [Line.edge_disabled hd]
    exact h
  by_cases hc : l.state = .coast ∧ l.coastEdge = false
  · rw [Line.edge_coastFirst hc.1 hc.2]
    exact { h.accept hd t with }
  have hacc := h.accept hd t
  cases hr : l.reference with
  | none =>
    rw [Line.edge_noReference hd hc hr]
    exact hacc
  | some r =>
    rcases Nat.lt_or_ge (t - r).toNat 4096 with hp | hp
    · rw [Line.edge_short hd hc hr hp]
      exact h
    · have hperiod : 4096 ≤ (t - r).toNat ∧ (t - r).toNat < 16777216 := ⟨hp, (t - r).isLt⟩
      cases hs : l.state with
      | disabled => exact absurd hs hd
      | searching =>
        rw [Line.edge_searching hr hp hs]
        exact hacc.search hs hperiod
      | tracking =>
        rw [Line.edge_tracking hr hp hs]
        exact hacc.locked rfl hd (.inl hs) h.recent (smoothed_range (h.ps_locked (.inl hs)) hperiod)
      | coast =>
        rw [Line.edge_coast hr hp hs (by simpa [hs] using hc)]
        exact hacc.locked rfl hd (.inl rfl) h.recent (smoothed_range (h.ps_locked (.inr hs)) hperiod)

/-! ### The filter sample (R113, R114) -/

theorem sampling (hp : l.prescaler = 0) : l.sampling.Ranged :=
  { h with
    n := by
      cases hn : l.nPending with
      | none => simpa [Line.sampling, hn] using h.n
      | some n => simpa [Line.sampling, hn] using h.nPending n hn
    nPending := fun _ hn => by cases hn
    prescaler := hp.trans_le (Nat.zero_le _) }

/-- An enabled line holds any settled level and any run up to 2. -/
theorem judged (he : l.enable = true) (v : Option Level) {r : Nat} (hr : r ≤ 2) :
    { l with settled := v, run := r }.Ranged :=
  { h with run := hr, disabled := fun hs => absurd hs (h.state_of_enable he) }

theorem sample (he : l.enable = true) (hp : l.prescaler = 0) : l.sample.1.Ranged := by
  have hsampling := h.sampling hp
  cases hv : l.settled with
  | none =>
    rw [Line.sample_unknown hv]
    exact hsampling.judged he _ (Nat.zero_le 2)
  | some v =>
    by_cases hin : v = l.input
    · rw [Line.sample_equal hv hin]
      exact hsampling.judged he _ (Nat.zero_le 2)
    · by_cases hr : l.run = 2
      · rw [Line.sample_turned hv hin hr]
        exact hsampling.judged he _ (Nat.zero_le 2)
      · rw [Line.sample_opposite hv hin hr]
        have := h.run
        exact hsampling.judged he _ (by omega)

theorem sampledAt (he : l.enable = true) (hp : l.prescaler = 0) (t : Tick) : (l.sampledAt t).Ranged := by
  unfold Line.sampledAt
  split
  · exact (h.sample he hp).edge t
  · exact h.sample he hp

/-! ### The timeouts (R118, R120) and the passing of ticks (R113) -/

theorem expired (t : Tick) : (l.expired t).Ranged := by
  unfold Line.expired
  split
  · exact h
  · rename_i hs
    exact h.locked rfl (by simp [hs]) (.inr rfl) h.recent (h.ps_locked (.inl hs))
  · rename_i hs
    have hoff : (LineState.searching = .disabled ↔ l.enable = false) := by simp [h.enable_of_state, hs]
    exact { h with off := hoff, recent := Nat.zero_le 2, disabled := fun hx => (nomatch hx), ps := rfl }
  · rename_i hs
    exact { h with recent := Nat.zero_le 2, disabled := fun hx => by simp [hs] at hx }

theorem passed (d : Nat) : (l.passed d).Ranged := by
  unfold Line.passed
  split
  · rename_i he
    exact
      { h with
        prescaler := Nat.lt_succ_iff.1 (Nat.mod_lt _ (Nat.succ_pos _))
        disabled := fun hs => absurd hs (h.state_of_enable he.1) }
  · exact h

/-- The prescaler stands at 0 when the ticks to the next sample have passed. -/
theorem prescaler_passed (he : l.enable = true) : (l.passed l.untilSample).prescaler = 0 := by
  have hpre := h.prescaler
  unfold Line.passed Line.untilSample
  by_cases hp : l.prescaler = 0
  · cases l.sampled <;> simp [he, hp]
  · have hne : l.n + 1 - l.prescaler ≠ 0 := by omega
    have hsum : l.prescaler + (l.n + 1 - l.prescaler) = l.n + 1 := by omega
    simp [he, hp, hne, hsum]

/-! ### TRANSPORT SETUP (R111, R112) -/

omit h in
/-- A DISABLED line as a request leaves it. -/
theorem off_settings (l : Line) (sense : Sense) {n tc tl : Nat} (hn : n ≤ 255)
    (ht : 1 ≤ tc ∧ tc ≤ 254 ∧ tc < tl ∧ tl ≤ 255) : (l.disable.settings sense n tc tl).Ranged where
  off := by simp [Line.disable, Line.settings]
  n := hn
  nPending _ hx := nomatch hx
  timeouts := ht
  tPending _ _ hx := nomatch hx
  prescaler := Nat.zero_le _
  run := Nat.zero_le _
  recent := Nat.zero_le _
  disabled _ := ⟨rfl, rfl, rfl, rfl, rfl⟩
  ps := rfl

theorem setup (now : Tick) (enable : Bool) (sense : Sense) {n tc tl : Nat} (hn : n ≤ 255)
    (ht : 1 ≤ tc ∧ tc ≤ 254 ∧ tc < tl ∧ tl ≤ 255) : (l.setup now enable sense n tc tl).Ranged := by
  cases he : l.enable with
  | true =>
    cases enable with
    | true =>
      rw [Line.setup_change _ _ _ _ _ he]
      refine
        { h with
          nPending := fun m hm => ?_
          tPending := fun c t hp => ?_
          recent := ?_
          disabled := fun hs => absurd hs (h.state_of_enable he) }
      · dsimp only at hm
        split at hm <;> cases hm
        exact hn
      · dsimp only at hp
        split at hp <;> cases hp
        exact ht
      · dsimp only
        split
        · exact h.recent
        · exact Nat.zero_le 2
    | false =>
      rw [Line.setup_off _ _ _ _ _ he]
      exact off_settings l sense hn ht
  | false =>
    cases enable with
    | true =>
      rw [Line.setup_start _ _ _ _ _ he]
      exact
        { off_settings l sense hn ht with
          off := by simp [Line.start]
          disabled := fun hs => nomatch hs
          ps := rfl }
    | false =>
      rw [Line.setup_stay _ _ _ _ _ he]
      have hs := h.off.2 he
      obtain ⟨hpre, -⟩ := h.disabled hs
      exact
        { h with
          n := hn
          nPending := fun _ hx => nomatch hx
          timeouts := ht
          tPending := fun _ _ hx => nomatch hx
          prescaler := hpre.trans_le (Nat.zero_le _) }

end Line.Ranged

end Sys2Proof.Machine

/-! PROOF. What the work of the lanes, the ports and the Render Engine does not reach: the tick counter, the lines and
the Profile Library (`State.globals`), operation by operation and row by row. -/

namespace Sys2Proof.Machine
open Sys2Proof

/-- The records of the part that belong to no lane, port, store or engine. -/
def State.globals (s : State) : Tick × Vector Line 4 × Vector Profile 32 := (s.tick, s.lines, s.library)

theorem State.lines_of_globals {s t : State} (h : t.globals = s.globals) : t.lines = s.lines :=
  congrArg (fun g => g.2.1) h

/-! ### The elementary updates -/

@[simp] theorem State.globals_event (s : State) : s.event.globals = s.globals := rfl
@[simp] theorem State.globals_setLane (s : State) (L : LaneId) (l : Lane) : (s.setLane L l).globals = s.globals := rfl
@[simp] theorem State.globals_modLane (s : State) (L : LaneId) (f : Lane → Lane) :
    (s.modLane L f).globals = s.globals := rfl
@[simp] theorem State.globals_count (s : State) (L : LaneId) (c : Ctr) : (s.count L c).globals = s.globals := rfl
@[simp] theorem State.globals_setStore (s : State) (m : SampleStore) : (s.setStore m).globals = s.globals := rfl
@[simp] theorem State.globals_setEngine (s : State) (e : Engine) : (s.setEngine e).globals = s.globals := rfl
@[simp] theorem State.globals_setPort (s : State) (p : Port) (q : PortRec) : (s.setPort p q).globals = s.globals := by
  cases p <;> rfl
@[simp] theorem State.globals_modPort (s : State) (p : Port) (f : PortRec → PortRec) :
    (s.modPort p f).globals = s.globals := s.globals_setPort p _
@[simp] theorem State.globals_raise (s : State) (c : NoticeCode) (who : Option LaneId) (pos d : Nat) :
    (s.raise c who pos d).globals = s.globals := rfl
@[simp] theorem State.globals_answer (s : State) (p : Port) (tag : Half) (lane : Byte) (st : Status) (b : List Byte) :
    (s.answer p tag lane st b).globals = s.globals := s.globals_modPort p _
@[simp] theorem State.globals_refuse (s : State) (p : Port) (tag : Half) (lane : Byte) (st : Status) (code : Byte)
    (n : Nat) : (s.refuse p tag lane st code n).globals = s.globals := s.globals_answer p tag lane st _

theorem State.globals_when {s : State} (due : Bool) {f : State → State} (hf : (f s).globals = s.globals) :
    (s.when due f).globals = s.globals := by
  cases due
  · rfl
  · exact hf

theorem State.Places.globals {L : LaneId} {s t : State} (h : s.Places L t) : t.globals = s.globals := by
  obtain ⟨-, htick, hlines, hlibrary, -, -⟩ := h.rest
  simp [State.globals, htick, hlines, hlibrary]

theorem State.Works.globals {L : LaneId} {s t : State} (h : s.Works L t) : t.globals = s.globals := h.places.globals

@[simp] theorem State.globals_assess (s : State) : s.assess.globals = s.globals :=
  ((State.Works.refl 0 s).assess).globals

@[simp] theorem State.globals_grant (s : State) : s.grant.globals = s.globals := by
  simp [State.globals]

/-! ### What a lane does by itself -/

@[simp] theorem State.globals_answerSyncs (s : State) (L : LaneId) : (s.answerSyncs L).globals = s.globals := by
  simp [State.answerSyncs]

@[simp] theorem State.globals_closeLane (s : State) (L : LaneId) : (s.closeLane L).globals = s.globals := by
  simp [State.closeLane, State.dropReservations]

@[simp] theorem State.globals_completeDrain (s : State) (L : LaneId) : (s.completeDrain L).globals = s.globals := by
  simp [State.completeDrain]

@[simp] theorem State.globals_sendGo (s : State) (L : LaneId) : (s.sendGo L).globals = s.globals := by
  simp [State.sendGo, State.enterFlow]

@[simp] theorem State.globals_discardRetiring (s : State) (L : LaneId) :
    (s.discardRetiring L).globals = s.globals := rfl

@[simp] theorem State.globals_placeLanding (s : State) (L : LaneId) : (s.placeLanding L).globals = s.globals :=
  (State.Places.refl L s).placeLanding.globals

@[simp] theorem State.globals_finishAnalysis (s : State) (L : LaneId) : (s.finishAnalysis L).globals = s.globals := by
  obtain ⟨u, hu, he⟩ := s.finishAnalysis_works L
  rw [he]
  exact hu.globals

@[simp] theorem State.globals_analyseNext (s : State) (L : LaneId) : (s.analyseNext L).globals = s.globals := by
  obtain ⟨u, hu, he⟩ := s.analyseNext_works L
  rw [he, State.globals_modLane, hu.globals]
  split <;> rfl

@[simp] theorem State.globals_settleLane (s : State) (L : LaneId) : (s.settleLane L).globals = s.globals := by
  unfold State.settleLane
  extract_lets s1 s2 s3 s4 s5 s6 s7
  have h1 : s1.globals = s.globals := (State.Places.refl L s).openSlot.globals
  have h2 : s2.globals = s1.globals := State.globals_when _ (by simp)
  have h3 : s3.globals = s2.globals := State.globals_when _ (by simp)
  have h4 : s4.globals = s3.globals := State.globals_when _ (by simp)
  have h5 : s5.globals = s4.globals := State.globals_when _ (by simp)
  have h6 : s6.globals = s5.globals := State.globals_when _ (by simp)
  have h7 : s7.globals = s6.globals := State.globals_when _ (by simp)
  rw [State.globals_grant, h7, h6, h5, h4, h3, h2, h1]

@[simp] theorem State.globals_completeRender (s : State) (r : Render) : (s.completeRender r).globals = s.globals := by
  unfold State.completeRender
  dsimp only
  split
  · rfl
  · simp

/-! ### Frames and the arbiter -/

theorem State.globals_samplesFor (s : State) (p : Port) (L : LaneId) (e : Landed) :
    (s.samplesFor p L e).globals = s.globals := by
  unfold State.samplesFor
  extract_lets l t
  split
  · simp
  · split
    · rfl
    · split
      · rfl
      · have ht : s.Places L t := by
          unfold t
          split
          · exact (State.Places.refl L s).setLane ⟨rfl, rfl, Nat.le_refl _, id⟩
          · exact .refl L s
        exact ((ht.cutFrame e).acceptFrame _).globals

theorem State.globals_frameArrives (s : State) (p : Port) (bytes : List Byte) :
    (s.frameArrives p bytes).globals = s.globals := by
  have hrequest : (s.requestArrives p bytes).globals = s.globals := by
    unfold State.requestArrives
    dsimp only
    split <;> simp [State.raiseTo]
  have hsamples : (s.samplesArrive p bytes).globals = s.globals := by
    unfold State.samplesArrive
    dsimp only
    split
    · split
      · simp
      · rw [State.globals_grant, State.globals_samplesFor]
    · simp
  unfold State.frameArrives
  dsimp only
  repeat' split
  all_goals simp [hrequest, hsamples]

theorem State.globals_takeLog (s : State) (p : Port) (L : LaneId) : (s.takeLog p L).globals = s.globals := by
  unfold State.takeLog
  dsimp only
  split
  · rfl
  · simp

theorem State.globals_release (s : State) (p : Port) (L : LaneId) : (s.release p L).globals = s.globals := by
  unfold State.release
  dsimp only
  split <;> simp

/-! ### Edits -/

theorem State.globals_edit (s : State) (p : Port) (tag : Half) (lane : Byte) (a : EditArgs)
    {own : State → LaneId → EditResult}
    (hown : ∀ L t start length absorbed, own s L = .done t start length absorbed → t.globals = s.globals) :
    (s.edit p tag lane a own).globals = s.globals := by
  unfold State.edit
  split
  · simp [State.refuseEdit, State.clearReservation]
  · split
    · simp [State.refuseEdit, State.clearReservation]
    · rename_i hdone
      simp [State.clearReservation, hown _ _ _ _ _ hdone]

theorem State.globals_disposeAt {s t : State} {p : Port} {L : LaneId} {start : Nat} {d : Disp}
    {changed : State → State} (hc : ∀ u, (changed u).globals = u.globals) {a b c : Nat}
    (ht : s.disposeAt p L start d changed = .done t a b c) : t.globals = s.globals := by
  unfold State.disposeAt at ht
  split at ht
  · cases ht
  · split at ht
    · cases ht
    · cases ht
    · split at ht <;> cases ht
      · rfl
      · rw [hc]
        exact ((((State.Works.refl L s).setList _).modLane fun l => l.editMark_worked _ _).recordEdited _ _ _ _).globals

theorem State.globals_addRecord {s t : State} {p : Port} {L : LaneId} {kind : Kind} {c : Ctr} {lo hi x y z : Nat}
    (ht : s.addRecord p L kind c lo hi = .done t x y z) : t.globals = s.globals := by
  unfold State.addRecord at ht
  dsimp only at ht
  split at ht
  · split at ht <;> cases ht
    simp [State.recordEdited, State.count, State.setList]
  · cases ht

theorem State.globals_force {s t : State} {p : Port} {a : EditArgs} {L : LaneId} {x y z : Nat}
    (ht : State.force p a s L = .done t x y z) : t.globals = s.globals := by
  unfold State.force at ht
  dsimp only at ht
  split at ht
  · cases ht
  · split at ht
    · cases ht
    · split at ht
      · cases ht
      · exact State.globals_addRecord ht

theorem State.globals_splice {s t : State} {p : Port} {a : EditArgs} {L : LaneId} {x y z : Nat}
    (ht : State.splice p a s L = .done t x y z) : t.globals = s.globals := by
  unfold State.splice at ht
  dsimp only at ht
  split at ht
  · cases ht
  · split at ht
    · cases ht
    · split at ht
      · cases ht
      · exact State.globals_addRecord ht

/-! ### The other requests -/

section
variable (s : State) (p : Port) (tag : Half) (lane : Byte)

theorem State.globals_laneOpen (a : LaneOpenArgs) : (s.laneOpen p tag lane a).globals = s.globals := by
  unfold State.laneOpen
  split
  · simp
  · simp [State.openLane]

theorem State.globals_laneClose : (s.laneClose p tag lane).globals = s.globals := by
  unfold State.laneClose
  repeat' split
  all_goals simp [State.abandonLane]

theorem State.globals_laneDrain : (s.laneDrain p tag lane).globals = s.globals := by
  unfold State.laneDrain
  repeat' split
  all_goals simp [State.park]

theorem State.globals_laneStatus : (s.laneStatus p tag lane).globals = s.globals := by
  unfold State.laneStatus
  split <;> simp

theorem State.globals_reserve (pos : Word) : (s.reserve p tag lane pos).globals = s.globals := by
  unfold State.reserve
  repeat' split
  all_goals simp

theorem State.globals_cursorSet (pos : Word) : (s.cursorSet p tag lane pos).globals = s.globals := by
  unfold State.cursorSet
  split <;> simp

theorem State.globals_listRead (n : Byte) : (s.listRead p tag lane n).globals = s.globals := by
  unfold State.listRead
  dsimp only
  repeat' split
  all_goals simp

theorem State.globals_sync : (s.sync p tag lane).globals = s.globals := by
  unfold State.sync
  dsimp only
  repeat' split
  all_goals simp [State.park]

theorem State.globals_profileRead (form which : Byte) : (s.profileRead p tag lane form which).globals = s.globals := by
  unfold State.profileRead
  repeat' split
  all_goals simp

theorem State.globals_refresh (slot : Byte) : (s.refresh p tag lane slot).globals = s.globals := by
  unfold State.refresh
  split
  · simp
  · rename_i L n _
    have hcopy : (s.newCopy L n).globals = s.globals := s.globals_modLane L _
    dsimp only
    rw [State.globals_answer, State.globals_when _ (State.globals_discardRetiring _ _), hcopy]

theorem State.globals_portSetup (width order delivery : Byte) :
    (s.portSetup p tag lane width order delivery).globals = s.globals := by
  simp [State.portSetup]

theorem State.globals_noticeMask (m : Vector Byte 6) : (s.noticeMask p tag lane m).globals = s.globals := by
  simp [State.noticeMask]

theorem State.globals_condition (form which : Byte) : (s.condition p tag lane form which).globals = s.globals := by
  unfold State.condition
  repeat' split
  all_goals simp

end

theorem State.globals_linkUp (s : State) (p : Port) : (s.linkUp p).globals = s.globals := by
  simp [State.linkUp, State.raiseTo]

/-! ### Outcomes -/

theorem State.globals_next {s u t : State} (hu : u.globals = s.globals)
    (h : (.next u : Host.Outcome State Fault Refusal) = .next t) : t.globals = s.globals := by
  cases h
  exact hu

theorem State.globals_take {s t : State} {p : Port} {e : Entry} {f : State → State}
    (hf : ∀ u, (f u).globals = u.globals) (h : s.take p e f = .next t) : t.globals = s.globals := by
  unfold State.take at h
  split at h <;> cases h
  · rw [hf, State.globals_setPort, State.globals_event]
  · rfl

theorem State.globals_takePlace {s t : State} {due : Bool} {f : State → State}
    (hf : ∀ u, (f u).globals = u.globals) (h : s.takePlace due f = .next t) : t.globals = s.globals := by
  unfold State.takePlace at h
  split at h <;> cases h
  · rw [hf, State.globals_event]
  · rfl

theorem State.globals_takeEdit {s t : State} {p : Port} {tag : Half} {lane : Byte} {a : EditArgs} {ofRow : Bool}
    {own : State → LaneId → EditResult}
    (hown : ∀ u L v x y z, own u L = .done v x y z → v.globals = u.globals)
    (h : s.takeEdit p tag lane a ofRow own = .next t) : t.globals = s.globals := by
  unfold State.takeEdit at h
  split at h
  · exact State.globals_take (fun u => u.globals_edit p tag lane a fun L v x y z => hown u L v x y z) h
  · cases h
    rfl

/-! ### The rows -/

/-- The rows that reach the tick counter, the lines or the Profile Library. -/
def writesGlobals : Instr → Bool
  | .transportSetup _ _ _ _ | .profileWrite _ _ _ _ _ | .unitReset _ _ _ | .resetPin | .perforationEdge _ _
  | .coastTimeout _ _ | .lostTimeout _ _ | .searchTimeout _ _ | .filterSample _ _ _ => true
  | _ => false

/-- Every other row leaves them as they stand. -/
theorem exec_globals {c : Instr} {s t : State} (hc : writesGlobals c = false) (h : exec c s = .next t) :
    t.globals = s.globals := by
  cases c with
  | requestFrame p bytes => exact State.globals_takePlace (fun u => u.globals_frameArrives _ _) h
  | samplesFrame p bytes => exact State.globals_takePlace (fun u => u.globals_frameArrives _ _) h
  | laneOpen p tag lane a => exact State.globals_take (fun u => u.globals_laneOpen _ _ _ _) h
  | laneClose p tag lane => exact State.globals_take (fun u => u.globals_laneClose _ _ _) h
  | laneDrain p tag lane => exact State.globals_take (fun u => u.globals_laneDrain _ _ _) h
  | laneStatus p tag lane => exact State.globals_take (fun u => u.globals_laneStatus _ _ _) h
  | editVeto p tag lane a =>
    exact State.globals_takeEdit (fun u L v x y z hv => State.globals_disposeAt (fun w => w.globals_count _ _) hv) h
  | editRestore p tag lane a =>
    exact State.globals_takeEdit (fun u L v x y z hv => State.globals_disposeAt (fun _ => rfl) hv) h
  | editForce p tag lane a => exact State.globals_takeEdit (fun u L v x y z hv => State.globals_force hv) h
  | editSplice p tag lane a => exact State.globals_takeEdit (fun u L v x y z hv => State.globals_splice hv) h
  | reserve p tag lane pos => exact State.globals_take (fun u => u.globals_reserve _ _ _ _) h
  | cursorSet p tag lane pos => exact State.globals_take (fun u => u.globals_cursorSet _ _ _ _) h
  | listRead p tag lane n => exact State.globals_take (fun u => u.globals_listRead _ _ _ _) h
  | sync p tag lane => exact State.globals_take (fun u => u.globals_sync _ _ _) h
  | profileRead p tag lane form which => exact State.globals_take (fun u => u.globals_profileRead _ _ _ _ _) h
  | refresh p tag lane slot => exact State.globals_take (fun u => u.globals_refresh _ _ _ _) h
  | portSetup p tag lane width order delivery =>
    exact State.globals_take (fun u => u.globals_portSetup _ _ _ _ _ _) h
  | noticeMask p tag lane masks => exact State.globals_take (fun u => u.globals_noticeMask _ _ _ _) h
  | condition p tag lane form which => exact State.globals_take (fun u => u.globals_condition _ _ _ _ _) h
  | identify p tag lane => exact State.globals_take (fun u => u.globals_answer _ _ _ _ _) h
  | malformedEntry p tag lane => exact State.globals_take (fun u => u.globals_answer _ _ _ _ _) h
  | unknownEntry p tag lane => exact State.globals_take (fun u => u.globals_answer _ _ _ _ _) h
  | linkDown p => exact State.globals_takePlace (fun u => u.globals_modPort _ _) h
  | linkUp p => exact State.globals_takePlace (fun u => u.globals_linkUp _) h
  | release p =>
    change execRelease p s = .next t at h
    unfold execRelease at h
    split at h
    · exact State.globals_next (s.event.globals_release _ _) h
    · exact State.globals_next rfl h
  | logFrameTaken p =>
    change execLogFrameTaken p s = .next t at h
    unfold execLogFrameTaken at h
    split at h
    · exact State.globals_next (s.event.globals_takeLog _ _) h
    · exact State.globals_next rfl h
  | responseTaken p =>
    change execResponseTaken p s = .next t at h
    unfold execResponseTaken at h
    split at h
    · exact State.globals_next (s.event.globals_modPort _ _) h
    · exact State.globals_next rfl h
  | noticeTaken p =>
    change execNoticeTaken p s = .next t at h
    unfold execNoticeTaken at h
    split at h
    · exact State.globals_next (s.event.globals_modPort _ _) h
    · exact State.globals_next rfl h
  | flowFrameTaken p =>
    change execFlowFrameTaken p s = .next t at h
    unfold execFlowFrameTaken at h
    split at h
    · exact State.globals_next (s.event.globals_modPort _ _) h
    · exact State.globals_next rfl h
  | renderStart => exact State.globals_takePlace (fun u => u.globals_grant) h
  | renderCompletion =>
    change execRenderCompletion s = .next t at h
    unfold execRenderCompletion at h
    split at h
    · exact State.globals_next ((State.globals_grant _).trans (s.event.globals_completeRender _)) h
    · exact State.globals_next rfl h
  | syncAnswer L => exact State.globals_takePlace (fun u => u.globals_answerSyncs _) h
  | analysePosition L =>
    change execAnalysePosition L s = .next t at h
    unfold execAnalysePosition at h
    refine State.globals_takePlace (fun u => ?_) h
    have hfinish := State.globals_when (f := (·.finishAnalysis L)) ((u.analyseNext L).lane L).finishDue
      ((u.analyseNext L).globals_finishAnalysis L)
    exact (State.globals_grant _).trans (hfinish.trans (u.globals_analyseNext L))
  | go L => exact State.globals_takePlace (fun u => u.globals_sendGo _) h
  | landingPlacement L =>
    exact State.globals_takePlace (fun u => (State.globals_settleLane _ _).trans (u.globals_placeLanding L)) h
  | finalBlock L =>
    exact State.globals_takePlace (fun u => (State.globals_settleLane _ _).trans (u.globals_modLane L _)) h
  | drainAnalysisFinish L =>
    exact State.globals_takePlace (fun u => (State.globals_grant _).trans (u.globals_finishAnalysis L)) h
  | drainCompletion L => exact State.globals_takePlace (fun u => u.globals_completeDrain _) h
  | retiringDiscard L => exact State.globals_takePlace (fun u => u.globals_discardRetiring _) h
  | transportSetup | profileWrite | unitReset | resetPin | perforationEdge | coastTimeout | lostTimeout | searchTimeout
  | filterSample => cases hc

end Sys2Proof.Machine

/-! PROOF. Every step keeps the lines in their ranges: the running of the counter, the rows of lines, TRANSPORT SETUP
and the resets. The statement O57. -/

namespace Sys2Proof.Machine
open Sys2Proof

/-- Tc and Tl brought into range are in range (R111). -/
theorem clampTimeouts_range (tc : Nat) {tl : Nat} (h : tl ≤ 255) :
    1 ≤ (clampTimeouts tc tl).1 ∧ (clampTimeouts tc tl).1 ≤ 254 ∧
      (clampTimeouts tc tl).1 < (clampTimeouts tc tl).2 ∧ (clampTimeouts tc tl).2 ≤ 255 := by
  rw [clampTimeouts_eq]
  dsimp only
  omega

/-- Every line record is in its ranges. -/
def State.linesRanged (s : State) : Prop := ∀ k, (s.line k).Ranged

theorem State.linesRanged_iff (s : State) : s.linesRanged ↔ ∀ k, (s.line k).inRange :=
  forall_congr' fun k => (s.line k).inRange_iff_ranged.symm

namespace State.linesRanged
variable {s : State} (h : s.linesRanged)
include h

theorem congr {t : State} (ht : t.lines = s.lines) : t.linesRanged := fun k => State.line_congr ht k ▸ h k

theorem event : s.event.linesRanged := h.congr rfl

theorem setLine (k : LineId) {l : Line} (hl : l.Ranged) : (s.setLine k l).linesRanged := fun j => by
  by_cases hj : j = k
  · subst hj
    rwa [State.line_setLine_same]
  · rw [State.line_setLine_ne _ _ _ _ hj]
    exact h j

/-! ### Line events -/

theorem captureEdge (k : LineId) (t : Tick) : (s.captureEdge k t).linesRanged :=
  (h.setLine k ((h k).edge t)).congr (s.captureEdge_lines k t)

theorem takeSample {k : LineId} (he : (s.line k).enable = true) (hp : (s.line k).prescaler = 0) :
    (s.takeSample k).linesRanged :=
  (h.setLine k ((h k).sampledAt he hp s.tick)).congr (s.takeSample_lines k)

theorem expire (k : LineId) : (s.expire k).linesRanged :=
  (h.setLine k ((h k).expired s.tick)).congr (s.expire_lines k)

theorem passTicks (d : Nat) : (s.passTicks d).linesRanged := fun k => by
  rw [State.passTicks_line]
  exact (h k).passed d

/-- A sample on the way is taken with the prescaler at 0, so that the n it makes current is no less. -/
theorem runTicks (fuel d : Nat) : (runTicks fuel d s).linesRanged := by
  refine runTicks_keeps (fun t d ht => ht.passTicks d) (fun t k e hnext ht => ?_)
    (fun t k e _ ht => (ht.passTicks e).event.expire k) fuel d h
  have hevent := State.nextLineEvent_some hnext
  have hon := Line.untilEvent_enable hevent
  have hline : (t.passTicks e).event.line k = (t.line k).passed e := by rw [State.line_event, State.passTicks_line]
  rcases Line.untilEvent_cases hevent with ⟨-, rfl, -⟩ | ⟨hfalse, -⟩
  · refine (ht.passTicks _).event.takeSample ?_ ?_
    · rw [hline, Line.passed_enable, hon]
    · rw [hline]
      exact (ht k).prescaler_passed hon
  · cases hfalse

theorem runTo (t : Tick) : (s.runTo t).linesRanged := (h.runTicks _ _).event

/-! ### The rows -/

/-- A timeout commanded is the timeout of the line's state. -/
theorem timeout {k : LineId} {st : LineState} {t : Tick} {u : State} (hu : (s.line k).state = st → u = s.expire k) :
    (if (s.line k).timeoutDue st t then u else s).linesRanged := by
  split
  · rename_i hdue
    obtain ⟨hs, -⟩ := (Line.timeoutDue_iff _ _ _).1 hdue
    rw [hu hs]
    exact h.expire k
  · exact h

theorem filterSample (k : LineId) (t : Tick) (level : Level) {u : State}
    (hu : exec (.filterSample k t level) s = .next u) : u.linesRanged := by
  have hrun := h.runTo t
  have hv := hrun.setLine k (l := { (s.runTo t).line k with input := level }) { hrun k with }
  rw [exec_filterSample] at hu
  dsimp only at hu
  split at hu <;> cases hu
  · rename_i hdue
    obtain ⟨he, hp, -⟩ := (Line.sampleDue_iff _).1 hdue
    exact hv.takeSample he hp
  · exact hv

theorem transportSetup (p : Port) (tag : Half) (lane : Byte) (a : TransportArgs) :
    (s.transportSetup p tag lane a).linesRanged := by
  have hanswer : ∀ {t : State}, t.linesRanged → ∀ st b, (t.answer p tag lane st b).linesRanged := fun ht st b =>
    ht.congr (State.modPort_lines _ _ _)
  unfold State.transportSetup
  split
  · exact hanswer h _ _
  · rename_i k _
    split
    · split
      · have ht := clampTimeouts_range a.tc.toNat (Nat.lt_succ_iff.1 a.tl.isLt)
        exact hanswer (h.setLine k ((h k).setup _ _ _ (Nat.lt_succ_iff.1 a.n.isLt) ht)) _ _
      · exact hanswer h _ _
    · exact hanswer h _ _

omit h in
/-- After a reset every line record holds its reset values (R110). -/
theorem ofReset {t : State} (ht : t.lines = mapVec (fun l => Line.reset l.input) s.lines) : t.linesRanged := fun k => by
  rw [State.line, ht, mapVec_getElem, ← Line.inRange_iff_ranged]
  exact Line.reset_inRange _

omit h in
theorem take {p : Port} {e : Entry} {f : State → State} (hf : ∀ u : State, u.linesRanged → (f u).linesRanged)
    (h : s.linesRanged) {t : State} (ht : s.take p e f = .next t) : t.linesRanged := by
  unfold State.take at ht
  split at ht <;> cases ht
  · exact hf _ (h.congr (State.setPort_lines _ _ _))
  · exact h

theorem profileWrite (p : Port) (tag : Half) (lane slot : Byte) (r : ProfileRaw) :
    (s.profileWrite p tag lane slot r).linesRanged := by
  refine h.congr ?_
  unfold State.profileWrite
  split
  · exact State.modPort_lines _ _ _
  · exact State.modPort_lines _ _ _

end State.linesRanged

/-- Every command's meaning keeps the lines in their ranges. -/
theorem exec_linesRanged {c : Instr} {s t : State} (hs : s.linesRanged) (h : exec c s = .next t) : t.linesRanged := by
  cases c with
  | transportSetup p tag lane a => exact hs.take (fun u hu => hu.transportSetup p tag lane a) h
  | profileWrite p tag lane slot r => exact hs.take (fun u hu => hu.profileWrite p tag lane slot r) h
  | unitReset p tag lane => exact hs.take (fun u _ => .ofReset (s := u) rfl) h
  | resetPin =>
    cases h
    exact .ofReset (s := s) rfl
  | perforationEdge k t =>
    cases h
    exact (hs.runTo t).captureEdge k t
  | coastTimeout k t =>
    cases h
    exact (hs.runTo t).timeout fun h => by rw [State.expire, h]
  | lostTimeout k t =>
    cases h
    exact (hs.runTo t).timeout fun h => by rw [State.expire, h]
  | searchTimeout k t =>
    cases h
    exact (hs.runTo t).timeout fun h => by rw [State.expire, h]
  | filterSample k t level => exact hs.filterSample k t level h
  | _ => exact hs.congr (State.lines_of_globals (exec_globals rfl h))

/-- Settles O57: the row of the command at the front of the queue, or one tick. -/
theorem stepKeepsTheLinesInRange : Obligations.StepKeepsTheLinesInRange := by
  intro s t h hs
  have hranged := s.linesRanged_iff.2 hs
  refine t.linesRanged_iff.1 ?_
  unfold step at h
  split at h
  · rename_i c rest _
    exact exec_linesRanged (s := { s with pending := rest }) hranged h
  · cases h
    exact hranged.runTicks _ _

end Sys2Proof.Machine

/-! PROOF. Sample words (R137 to R139): the bytes of a word and their value in either byte order, and the delivered word of a
sample under each rounding. The statement O53. -/

namespace Sys2Proof.Machine
open Sys2Proof

/-! ### The bytes of a word (R137, R139) -/

/-- Reading on from the value `acc` of the bytes already read. -/
theorem foldl_beBytes (k n acc : Nat) :
    (beBytes k n).foldl (fun m b => 256 * m + b.toNat) acc = 256 ^ k * acc + n % 256 ^ k := by
  induction k generalizing acc with
  | zero => simp [beBytes, Nat.mod_one]
  | succ k ih =>
    have hbyte : (BitVec.ofNat 8 (n / 256 ^ k)).toNat = n / 256 ^ k % 256 := BitVec.toNat_ofNat _ _
    rw [beBytes, List.foldl_cons, ih, hbyte, Nat.mod_pow_succ]
    ring

theorem fromBE_beBytes (k n : Nat) : fromBE (beBytes k n) = n % 256 ^ k := by
  rw [fromBE, foldl_beBytes]
  omega

/-- Two's complement: a signed integer that fits in `size` bytes is the one read from its residue. -/
theorem signedOf_emod {size : Nat} (hsize : 0 < size) {x : Int} (hlow : -2 ^ (8 * size - 1) ≤ x)
    (hhigh : x < 2 ^ (8 * size - 1)) : signedOf size (x % 2 ^ (8 * size)).toNat = x := by
  obtain ⟨h, hh⟩ : ∃ h : Nat, 2 ^ (8 * size - 1) = h := ⟨_, rfl⟩
  have hhalf : (2 : Int) ^ (8 * size - 1) = h := by exact_mod_cast hh
  have hwhole : (2 : Int) ^ (8 * size) = 2 * h := by
    rw [← hhalf, ← pow_succ', Nat.sub_add_cancel (by omega)]
  rw [hhalf] at hlow hhigh
  rw [signedOf, hh, hwhole]
  rcases Int.lt_or_le x 0 with hneg | hnonneg
  · have hmod : x % (2 * h) = x + 2 * h := by
      rw [← Int.add_emod_right, Int.emod_eq_of_lt (by omega) (by omega)]
    rw [hmod, if_neg (by omega)]
    omega
  · rw [Int.emod_eq_of_lt hnonneg (by omega), if_pos (by omega)]
    omega

/-- The bytes of a word, most significant first, have the word's residue as their value. -/
theorem fromBE_wordBytes_big (w : Width) (x : Int) :
    fromBE (wordBytes w .big x) = (x % 2 ^ (8 * w.size)).toNat := by
  have hpos : (0 : Int) < 2 ^ (8 * w.size) := by positivity
  have hpow : ((256 ^ w.size : Nat) : Int) = 2 ^ (8 * w.size) := by
    rw [pow_mul]
    norm_num
  have hlt := Int.emod_lt_of_pos x hpos
  rw [wordBytes, fromBE_beBytes, Nat.mod_eq_of_lt (by omega)]

/-- The byte order of a port cancels between sending a word and reading it. -/
theorem decodeWord_wordBytes_order (w : Width) (o : ByteOrder) (x : Int) :
    decodeWord w o (wordBytes w o x) = decodeWord w .big (wordBytes w .big x) := by
  cases o with
  | big => rfl
  | little => simp only [decodeWord, wordBytes, List.reverse_reverse]

/-- A word that fits its width is read back as itself, in the three bytes of an internal sample. -/
theorem decodeWord_wordBytes (w : Width) (o : ByteOrder) {x : Int} (hlow : -2 ^ (8 * w.size - 1) ≤ x)
    (hhigh : x < 2 ^ (8 * w.size - 1)) : decodeWord w o (wordBytes w o x) = x * 256 ^ (3 - w.size) := by
  have hsize : 0 < w.size := by cases w <;> decide
  have hsigned : signedOf w.size (fromBE (wordBytes w .big x)) = x := by
    rw [fromBE_wordBytes_big, signedOf_emod hsize hlow hhigh]
  rw [decodeWord_wordBytes_order]
  cases w with
  | w16 => exact congrArg (· * 256) hsigned
  | w24 => exact hsigned.trans (Int.mul_one x).symm

/-! ### The delivered word (R138) -/

/-- Within half a divisor of the exact quotient, and even where it is just half away. -/
theorem roundEven256_nearest (y : Int) :
    (256 * roundEven256 y - y).natAbs ≤ 128 ∧
    ((256 * roundEven256 y - y).natAbs = 128 → roundEven256 y % 2 = 0) := by
  simp only [roundEven256]
  split
  case isTrue hbelow => omega
  case isFalse hnotBelow =>
    split
    case isTrue habove => omega
    case isFalse hhalf => split <;> omega

/-- The fraction is dropped toward zero. -/
theorem tdiv256_toward_zero (y : Int) :
    (y.tdiv 256).natAbs = y.natAbs / 256 ∧ (0 ≤ y → 0 ≤ y.tdiv 256) ∧ (y ≤ 0 → y.tdiv 256 ≤ 0) := by
  refine ⟨Int.natAbs_tdiv y 256, fun h => Int.tdiv_nonneg h (by decide), fun h => ?_⟩
  have hneg : 0 ≤ (-y).tdiv 256 := Int.tdiv_nonneg (Int.neg_nonneg_of_nonpos h) (by decide)
  rw [Int.neg_tdiv] at hneg
  exact Int.nonpos_of_neg_nonneg hneg

theorem deliveredWord_w24 (r : Rounding) (y : Int) : deliveredWord .w24 r y = y := rfl

/-- Saturation has no effect under TRUNCATE. -/
theorem deliveredWord_truncate {y : Int} (hy : isSample y) : deliveredWord .w16 .truncate y = y.tdiv 256 := by
  obtain ⟨hlow, hhigh⟩ := hy
  obtain ⟨habs, hpos, hneg⟩ := tdiv256_toward_zero y
  rw [deliveredWord, clampInt_eq (by decide)]
  omega

/-- Under NEAREST a sample is saturated at the top alone. -/
theorem deliveredWord_nearest {y : Int} (hy : isSample y) :
    deliveredWord .w16 .nearest y = min 32767 (roundEven256 y) := by
  obtain ⟨hlow, hhigh⟩ := hy
  obtain ⟨hnear, -⟩ := roundEven256_nearest y
  rw [deliveredWord, clampInt_eq (by decide)]
  omega

theorem deliveredWord_nearest_of_le {y : Int} (hy : isSample y) (h : 8388480 ≤ y) :
    deliveredWord .w16 .nearest y = 32767 := by
  obtain ⟨hnear, -⟩ := roundEven256_nearest y
  rw [deliveredWord_nearest hy]
  omega

theorem deliveredWord_nearest_of_lt {y : Int} (hy : isSample y) (h : y < 8388480) :
    deliveredWord .w16 .nearest y = roundEven256 y := by
  obtain ⟨hnear, -⟩ := roundEven256_nearest y
  rw [deliveredWord_nearest hy]
  omega

/-- A sample with no fraction is delivered as its 16-bit word. -/
theorem deliveredWord_widened (r : Rounding) {x : Int} (hlow : -32768 ≤ x) (hhigh : x ≤ 32767) :
    deliveredWord .w16 r (256 * x) = x := by
  have hy : isSample (256 * x) := ⟨by omega, by omega⟩
  cases r with
  | nearest =>
    obtain ⟨hnear, -⟩ := roundEven256_nearest (256 * x)
    rw [deliveredWord_nearest_of_lt hy (by omega)]
    omega
  | truncate => rw [deliveredWord_truncate hy, Int.mul_tdiv_cancel_left x (by decide)]

/-- Settles O53: both widths of a word read back, and both roundings of a sample. -/
theorem deliveredWordsFollowTheirRounding : Obligations.DeliveredWordsFollowTheirRounding := by
  refine ⟨fun o y hy => ?readBack24, fun o x hlow hhigh => ?readBack16,
    fun r x hlow hhigh => deliveredWord_widened r hlow hhigh, deliveredWord_w24, fun y hy => ⟨?truncate, ?nearest⟩⟩
  case readBack24 =>
    obtain ⟨hlow, hhigh⟩ := hy
    exact (decodeWord_wordBytes .w24 o hlow (Int.lt_of_le_sub_one hhigh)).trans (Int.mul_one y)
  case readBack16 =>
    exact (decodeWord_wordBytes .w16 o hlow (Int.lt_of_le_sub_one hhigh)).trans (Int.mul_comm x 256)
  case truncate =>
    rw [deliveredWord_truncate hy]
    exact tdiv256_toward_zero y
  case nearest =>
    refine ⟨deliveredWord_nearest_of_le hy, fun h => ?_⟩
    rw [deliveredWord_nearest_of_lt hy h]
    exact roundEven256_nearest y

end Sys2Proof.Machine

/-! PROOF. PROFILE records: the clamps of R145, the orderings of R144, and the checks of a PROFILE WRITE. -/

namespace Sys2Proof.Machine
open Sys2Proof

/-! ### The orderings (R144) -/

theorem notDecreasing_iff (l : List Nat) : notDecreasing l = true ↔ l.IsChain (· ≤ ·) := by
  induction l with
  | nil => simp [notDecreasing]
  | cons x t ih =>
    cases t with
    | nil => simp [notDecreasing]
    | cons y t =>
      rw [List.isChain_cons_cons, ← ih]
      simp [notDecreasing]

/-- The levels of a record do not decrease: step by step. -/
theorem levels_iff_succ (v : Vector Nat 12) :
    notDecreasing v.toList = true ↔ ∀ j : Fin 11, v[j.val] ≤ v[j.val + 1] := by
  rw [notDecreasing_iff, List.isChain_iff_getElem]
  simp only [Vector.length_toList, Vector.getElem_toList]
  exact ⟨fun h j => h j.val (by omega), fun h i hi => h ⟨i, by omega⟩⟩

/-- The levels of a record do not decrease: over any distance. -/
theorem levels_le {v : Vector Nat 12} (h : notDecreasing v.toList = true) {i j : Fin 12} (hij : i ≤ j) :
    v[i.val] ≤ v[j.val] := by
  rw [notDecreasing_iff, List.isChain_iff_pairwise] at h
  rcases Nat.eq_or_lt_of_le (Fin.le_def.1 hij) with heq | hlt
  · exact Nat.le_of_eq (by congr 1)
  · simpa using List.pairwise_iff_getElem.1 h i.val j.val (by simp) (by simp) hlt

/-- The two orderings of a record that PROFILE WRITE checks. -/
def Profile.Ordered (x : Profile) : Prop := notDecreasing x.levels.toList = true ∧ x.g1 ≤ x.g2 ∧ x.g2 ≤ x.g3

theorem Profile.not_ordered_iff (x : Profile) : ¬ x.Ordered ↔
    (∃ j : Fin 11, x.levels[j.val + 1] < x.levels[j.val]) ∨ x.g2 < x.g1 ∨ x.g3 < x.g2 := by
  rw [Profile.Ordered, levels_iff_succ, not_and_or, not_and_or, not_forall]
  simp only [Nat.not_le]

/-! ### The clamps (R145) -/

theorem clampedProfile_level (r : ProfileRaw) (m : HumMode) (j : Fin 12) :
    (clampedProfile r m).levels[j.val] = min 8388607 r.levels[j.val].toNat := by
  simp only [clampedProfile, mapVec_getElem]

theorem clampedProfile_alpha (r : ProfileRaw) (m : HumMode) (j : Fin 12) :
    (clampedProfile r m).alphas[j.val] = max 1 (min 32768 r.alphas[j.val].toNat) := by
  simp only [clampedProfile, mapVec_getElem, clampNat]

theorem carriedProfile_level (r : ProfileRaw) (m : HumMode) (j : Fin 12) :
    (carriedProfile r m).levels[j.val] = r.levels[j.val].toNat := by
  simp only [carriedProfile, mapVec_getElem]

theorem carriedProfile_alpha (r : ProfileRaw) (m : HumMode) (j : Fin 12) :
    (carriedProfile r m).alphas[j.val] = r.alphas[j.val].toNat := by
  simp only [carriedProfile, mapVec_getElem]

/-- A clamped record whose orderings hold is in range (R143). -/
theorem clampedProfile_inRange {r : ProfileRaw} {m : HumMode} (h : (clampedProfile r m).Ordered) :
    (clampedProfile r m).inRange := by
  obtain ⟨hlevels, h12, h23⟩ := h
  have hemin : r.emin.toNat < 65536 := r.emin.isLt
  have hg3 : r.g3.toNat < 65536 := r.g3.isLt
  refine ⟨?_, ?_, ?_, ?_, ?_, ?_, ?_, ?_, ?_, ?_, ?_, ?_, ?_, ?_, ?_, fun j => ?levels,
    fun i j hij => levels_le hlevels hij, fun j => ?alphas, ?_, h12, h23⟩
  case levels =>
    rw [clampedProfile_level]
    omega
  case alphas =>
    rw [clampedProfile_alpha]
    omega
  all_goals
    simp only [clampedProfile, clampNat]
    omega

/-! ### The checks of PROFILE WRITE (R144) -/

theorem slotNumber_iff {b : Byte} {n : Fin 32} : slotNumber b = some n ↔ b.toNat = n.val := by
  refine ⟨fun h => ?_, slotNumber_eq⟩
  unfold slotNumber at h
  split at h
  · cases h
    rfl
  · cases h

theorem slotNumber_none {b : Byte} (h : 31 < b.toNat) : slotNumber b = none := by
  unfold slotNumber
  rw [dif_neg (by omega)]

theorem modeOf_iff {b : Byte} {m : HumMode} :
    modeOf b = some m ↔ b.toNat ≤ 1 ∧ m = if b = 0#8 then .fixed else .tracked := by
  constructor
  · intro h
    unfold modeOf at h
    split at h
    · cases h
      simp [*]
    · split at h
      · cases h
        simp [*]
      · cases h
  · rintro ⟨hb, rfl⟩
    rcases Byte.eq_zero_or_one hb with rfl | rfl <;> rfl

/-- A write passes the checks of R144 for the slot it names and the clamped record, if that is ordered. -/
theorem checkWrite_iff {slot : Byte} {r : ProfileRaw} {n : Fin 32} {held : Profile} :
    checkWrite slot r = some (n, held) ↔
      slot.toNat = n.val ∧ ∃ m, modeOf r.mode = some m ∧ held = clampedProfile r m ∧ held.Ordered := by
  rw [← slotNumber_iff]
  unfold checkWrite
  split
  · rename_i k m hslot hmode
    have hchecks : (notDecreasing (clampedProfile r m).levels.toList &&
        decide ((clampedProfile r m).g1 ≤ (clampedProfile r m).g2) &&
        decide ((clampedProfile r m).g2 ≤ (clampedProfile r m).g3)) = true ↔ (clampedProfile r m).Ordered := by
      simp only [Bool.and_eq_true, decide_eq_true_eq, Profile.Ordered, and_assoc]
    simp only [hslot, hmode, Option.some.injEq]
    split
    · rename_i hordered
      constructor
      · intro h
        cases h
        exact ⟨rfl, m, rfl, rfl, hchecks.1 hordered⟩
      · rintro ⟨rfl, k, rfl, rfl, -⟩
        rfl
    · rename_i hnot
      refine ⟨nofun, ?_⟩
      rintro ⟨-, k, rfl, rfl, hordered⟩
      exact absurd (hchecks.2 hordered) hnot
  · rename_i hnone
    exact ⟨nofun, fun ⟨hslot, m, hmode, _⟩ => absurd hmode (hnone n m hslot)⟩

theorem checkWrite_inRange {slot : Byte} {r : ProfileRaw} {n : Fin 32} {held : Profile}
    (h : checkWrite slot r = some (n, held)) : held.inRange := by
  obtain ⟨-, m, -, rfl, hordered⟩ := checkWrite_iff.1 h
  exact clampedProfile_inRange hordered

end Sys2Proof.Machine

/-! PROOF. Working copies, the Profile Library and the frames sent under every operation of the part: the relation
`State.Keeps`, one lemma per operation. -/

namespace Sys2Proof.Machine
open Sys2Proof

/-! ### The relation -/

/-- `w` is one of the lane's two working copies (R148). -/
def Lane.Holds (l : Lane) (w : WorkingCopy) : Prop := l.active = some w ∨ l.retiring = some w

theorem Lane.Holds.congr {l m : Lane} (ha : m.active = l.active) (hr : m.retiring = l.retiring) {w : WorkingCopy}
    (h : m.Holds w) : l.Holds w := by
  unfold Lane.Holds at h ⊢
  rwa [← ha, ← hr]

theorem Lane.Holds.of_placed {l m : Lane} (h : l.Placed m) {w : WorkingCopy} (hw : m.Holds w) : l.Holds w := by
  obtain ⟨he, -⟩ := h
  exact hw.congr (by rw [he]) (by rw [he])

theorem Lane.closed_holds (l : Lane) (w : WorkingCopy) : ¬ l.closed.Holds w := by
  simp [Lane.Holds, Lane.closed, Lane.reset]

theorem Lane.completed_copies (l : Lane) (r : Render) :
    (l.completed r).active = l.active ∧ (l.completed r).retiring = l.retiring := by
  unfold Lane.completed
  dsimp only
  split <;> split <;> exact ⟨rfl, rfl⟩

theorem Lane.fixFinal_copies (l : Lane) : l.fixFinal.active = l.active ∧ l.fixFinal.retiring = l.retiring := by
  unfold Lane.fixFinal
  dsimp only
  split
  · split <;> exact ⟨rfl, rfl⟩
  · exact ⟨rfl, rfl⟩

theorem PortRec.answerWhere_sent (q : PortRec) (f : Parked → Bool) (st : Status) (payload : Parked → List Byte) :
    (q.answerWhere f st payload).sent = q.sent := by
  rw [PortRec.answerWhere_eq]

/-- From `s` to `t` the library stands and no port has sent anything, and each working copy was held before or is one
newly taken of a library slot. -/
structure State.Keeps (s t : State) : Prop where
  library : t.library = s.library
  copies : ∀ L w, (t.lane L).Holds w → (s.lane L).Holds w ∨ ∃ n : Fin 32, w.profile = s.library[n.val]
  sent : ∀ p, (t.port p).sent = (s.port p).sent

theorem State.port_congr {s t : State} (hA : t.portA = s.portA) (hB : t.portB = s.portB) (p : Port) :
    t.port p = s.port p := by
  cases p
  · exact hA
  · exact hB

/-- Work on one lane, and placement, reach none of the three. -/
theorem State.Places.keeps {L : LaneId} {s t : State} (h : s.Places L t) : s.Keeps t where
  library := by
    obtain ⟨-, -, -, hlibrary, -, -⟩ := h.rest
    exact hlibrary
  copies M w hw := by
    by_cases hM : M = L
    · subst hM
      exact .inl (hw.of_placed h.lane)
    · exact .inl (hw.of_placed (h.other M hM).worked.placed)
  sent p := by
    obtain ⟨he, -⟩ := h.port p
    rw [he]

theorem State.LineFrame.keeps {s t : State} (h : s.LineFrame t) : s.Keeps t where
  library := by
    obtain ⟨-, -, hlibrary, -⟩ := h.rest
    exact hlibrary
  copies L w hw := .inl (hw.congr (by rw [h.lane L]) (by rw [h.lane L]))
  sent p := by rw [h.port p]

namespace State.Keeps
variable {r s : State}

theorem refl (s : State) : s.Keeps s := ⟨rfl, fun _ _ hw => .inl hw, fun _ => rfl⟩

theorem trans {t : State} (h : r.Keeps s) (h' : s.Keeps t) : r.Keeps t where
  library := h'.library.trans h.library
  copies L w hw := by
    rcases h'.copies L w hw with hs | hnew
    · exact h.copies L w hs
    · rw [h.library] at hnew
      exact .inr hnew
  sent p := (h'.sent p).trans (h.sent p)

theorem places {t : State} {L : LaneId} (h : r.Keeps s) (h' : s.Places L t) : r.Keeps t := h.trans h'.keeps

theorem works {t : State} {L : LaneId} (h : r.Keeps s) (h' : s.Works L t) : r.Keeps t := h.places h'.places

/-! ### The elementary updates -/

/-- Neither lanes nor ports nor the library are reached. -/
theorem frame {t : State} (h : r.Keeps s) (hlanes : t.lanes = s.lanes) (hlibrary : t.library = s.library)
    (hA : t.portA = s.portA) (hB : t.portB = s.portB) : r.Keeps t :=
  h.trans ⟨hlibrary, fun L w hw => .inl (by rwa [← State.lane_congr hlanes L]),
    fun p => by rw [State.port_congr hA hB]⟩

theorem event (h : r.Keeps s) : r.Keeps s.event := h.frame rfl rfl rfl rfl

/-- A lane record each of whose copies was there before, or is taken of the library. -/
theorem setLane (h : r.Keeps s) {L : LaneId} {l : Lane}
    (hl : ∀ w, l.Holds w → (s.lane L).Holds w ∨ ∃ n : Fin 32, w.profile = s.library[n.val]) :
    r.Keeps (s.setLane L l) := by
  refine h.trans ⟨rfl, fun M w hw => ?_, fun p => by rw [State.port_setLane]⟩
  by_cases hM : M = L
  · subst hM
    rw [State.lane_setLane_same] at hw
    exact hl w hw
  · rw [State.lane_setLane_ne _ _ _ _ hM] at hw
    exact .inl hw

theorem modLane (h : r.Keeps s) (L : LaneId) (f : Lane → Lane)
    (hf : ∀ l w, (f l).Holds w → l.Holds w := by exact fun _ _ hw => hw.congr rfl rfl) : r.Keeps (s.modLane L f) :=
  h.setLane fun w hw => .inl (hf _ w hw)

theorem modPort (h : r.Keeps s) (p : Port) (f : PortRec → PortRec)
    (hf : ∀ q, (f q).sent = q.sent := by exact fun _ => rfl) : r.Keeps (s.modPort p f) := by
  refine h.trans ⟨by simp, fun L w hw => .inl (by rwa [State.lane_modPort] at hw), fun q => ?_⟩
  cases p <;> cases q
  · exact hf _
  · rfl
  · rfl
  · exact hf _

/-- Both ports updated alike. -/
theorem modPorts (h : r.Keeps s) (f : PortRec → PortRec)
    (hf : ∀ q, (f q).sent = q.sent := by exact fun _ => rfl) : r.Keeps ((s.modPort .A f).modPort .B f) :=
  (h.modPort .A f hf).modPort .B f hf

theorem setPort (h : r.Keeps s) (p : Port) (q : PortRec) (hq : q.sent = (s.port p).sent := by exact rfl) :
    r.Keeps (s.setPort p q) :=
  h.trans ⟨by simp, fun L w hw => .inl (by rwa [State.lane_setPort] at hw), fun k => by
    cases p <;> cases k
    · exact hq
    · rfl
    · rfl
    · exact hq⟩

theorem when (h : r.Keeps s) (due : Bool) {f : State → State} (hf : r.Keeps (f s)) : r.Keeps (s.when due f) := by
  cases due
  · exact h
  · exact hf

theorem answer (h : r.Keeps s) (p : Port) (tag : Half) (lane : Byte) (st : Status) (b : List Byte) :
    r.Keeps (s.answer p tag lane st b) :=
  h.modPort p _

theorem refuse (h : r.Keeps s) (p : Port) (tag : Half) (lane : Byte) (st : Status) (code : Byte) (n : Nat) :
    r.Keeps (s.refuse p tag lane st code n) :=
  h.answer _ _ _ _ _

theorem raiseTo (h : r.Keeps s) (p : Port) (c : NoticeCode) (who : Option LaneId) (pos d : Nat) :
    r.Keeps (s.raiseTo p c who pos d) :=
  h.modPort p _

theorem raise (h : r.Keeps s) (c : NoticeCode) (who : Option LaneId) (pos d : Nat) : r.Keeps (s.raise c who pos d) :=
  h.works ((State.Works.refl 0 s).raise c who pos d)

theorem assess (h : r.Keeps s) : r.Keeps s.assess := h.works (State.Works.refl 0 s).assess

theorem grant (h : r.Keeps s) : r.Keeps s.grant :=
  h.trans ⟨s.grant_library, fun L w hw => .inl (by rw [State.grant_lane] at hw; exact hw.congr rfl rfl),
    fun p => by rw [State.grant_port]⟩

/-! ### What a lane does by itself -/

theorem answerSyncs (h : r.Keeps s) (L : LaneId) : r.Keeps (s.answerSyncs L) :=
  h.modPorts _ fun q => q.answerWhere_sent _ _ _

theorem completeRender (h : r.Keeps s) (x : Render) : r.Keeps (s.completeRender x) := by
  unfold State.completeRender
  dsimp only
  split
  · exact h.frame rfl rfl rfl rfl
  · have ht : r.Keeps ((s.setEngine { s.engine with inFlight := none }).setStore (s.completedStore x)) :=
      h.frame rfl rfl rfl rfl
    exact (ht.modLane _ _ fun l _ hw => hw.congr (l.completed_copies x).1 (l.completed_copies x).2).answerSyncs _

theorem closeLane (h : r.Keeps s) (L : LaneId) : r.Keeps (s.closeLane L) := by
  have hflow := h.modPorts (·.withdrawFlow L)
  have hdropped := hflow.modPorts (·.loseIf (·.lane == L))
  exact (hdropped.modLane L Lane.closed fun l w hw => absurd hw (l.closed_holds w)).assess

theorem completeDrain (h : r.Keeps s) (L : LaneId) : r.Keeps (s.completeDrain L) :=
  ((h.modPorts _ fun q => q.answerWhere_sent _ _ _).closeLane L).raise _ _ _ _

theorem abandonLane (h : r.Keeps s) (L : LaneId) : r.Keeps (s.abandonLane L) := by
  unfold State.abandonLane
  extract_lets release t
  have ht : r.Keeps t := h.modPorts _ fun q => q.answerWhere_sent _ _ _
  have hidle : r.Keeps (t.setEngine (t.engine.abandon L)) := ht.frame rfl rfl rfl rfl
  exact (hidle.closeLane L).raise _ _ _ _

theorem fixFinal (h : r.Keeps s) (L : LaneId) : r.Keeps (s.modLane L Lane.fixFinal) :=
  h.modLane _ _ fun l _ hw => hw.congr l.fixFinal_copies.1 l.fixFinal_copies.2

theorem enterFlow (h : r.Keeps s) (L : LaneId) (hold : Bool) : r.Keeps (s.enterFlow L hold) := by
  unfold State.enterFlow
  refine h.modPort _ _ fun q => ?_
  split <;> rfl

theorem sendGo (h : r.Keeps s) (L : LaneId) : r.Keeps (s.sendGo L) := (h.modLane _ _).enterFlow L false

theorem discardRetiring (h : r.Keeps s) (L : LaneId) : r.Keeps (s.discardRetiring L) :=
  h.modLane _ _ fun l w hw => .inl (by simpa [Lane.Holds] using hw)

theorem blockEnd {l : Lane} {n : Nat} {w : WorkingCopy} (hw : (l.blockEnd n).Holds w) : l.Holds w :=
  hw.of_placed (l.blockEnd_worked n).placed

theorem finishAnalysis (h : r.Keeps s) (L : LaneId) : r.Keeps (s.finishAnalysis L) := by
  obtain ⟨u, hu, he⟩ := s.finishAnalysis_works L
  rw [he]
  exact (h.works hu).modLane _ _ fun l w hw => blockEnd (hw.congr rfl rfl)

theorem analyseNext (h : r.Keeps s) (L : LaneId) : r.Keeps (s.analyseNext L) := by
  obtain ⟨u, hu, he⟩ := s.analyseNext_works L
  rw [he]
  refine (works ?_ hu).modLane _ _ fun l w hw => blockEnd (hw.congr rfl rfl)
  split
  · exact h.frame rfl rfl rfl rfl
  · exact h

theorem settleLane (h : r.Keeps s) (L : LaneId) : r.Keeps (s.settleLane L) := by
  unfold State.settleLane
  extract_lets s1 s2 s3 s4 s5 s6 s7
  have h1 : r.Keeps s1 := h.places (State.Places.refl L s).openSlot
  have h2 : r.Keeps s2 := h1.when _ (h1.places (State.Places.refl L s1).placeLanding)
  have h3 : r.Keeps s3 := h2.when _ (h2.fixFinal L)
  have h4 : r.Keeps s4 := h3.when _ (h3.finishAnalysis L)
  have h5 : r.Keeps s5 := h4.when _ (h4.sendGo L)
  have h6 : r.Keeps s6 := h5.when _ (h5.discardRetiring L)
  have h7 : r.Keeps s7 := h6.when _ (h6.completeDrain L)
  exact h7.grant

end State.Keeps

end Sys2Proof.Machine

/-! PROOF. The rows of the table under `State.Keeps`: all but the five of the arbiter and the three that write the
Profile Library. -/

namespace Sys2Proof.Machine
open Sys2Proof

/-! ### EDIT -/

/-- An EDIT's own effect is work on its lane. -/
theorem State.addRecord_works {s t : State} {p : Port} {L : LaneId} {kind : Kind} {c : Ctr} (hc : c ≠ .released)
    {lo hi x y z : Nat} (h : s.addRecord p L kind c lo hi = .done t x y z) : s.Works L t := by
  unfold State.addRecord at h
  dsimp only at h
  split at h
  · split at h <;> cases h
    refine State.Works.recordEdited (State.Works.count (State.Works.modLane ?_ fun l => l.editMark_worked lo hi) hc) ..
    exact (((State.Works.refl L s).setList _).setList _).assess
  · cases h

theorem State.force_works {s t : State} {p : Port} {a : EditArgs} {L : LaneId} {x y z : Nat}
    (h : State.force p a s L = .done t x y z) : s.Works L t := by
  unfold State.force at h
  dsimp only at h
  split at h
  · cases h
  · split at h
    · cases h
    · split at h
      · cases h
      · exact State.addRecord_works (by decide) h

theorem State.splice_works {s t : State} {p : Port} {a : EditArgs} {L : LaneId} {x y z : Nat}
    (h : State.splice p a s L = .done t x y z) : s.Works L t := by
  unfold State.splice at h
  dsimp only at h
  split at h
  · cases h
  · split at h
    · cases h
    · split at h
      · cases h
      · exact State.addRecord_works (by decide) h

theorem State.disposeAt_works {s t : State} {p : Port} {L : LaneId} {start : Nat} {d : Disp} {changed : State → State}
    (hc : ∀ u, s.Works L u → s.Works L (changed u)) {x y z : Nat}
    (h : s.disposeAt p L start d changed = .done t x y z) : s.Works L t := by
  unfold State.disposeAt at h
  split at h
  · cases h
  · split at h
    · cases h
    · cases h
    · split at h <;> cases h
      · exact .refl L s
      · exact hc _ ((((State.Works.refl L s).setList _).modLane fun l => l.editMark_worked _ _).recordEdited _ _ _ _)

namespace State.Keeps
variable {r s : State}

theorem edit (h : r.Keeps s) (p : Port) (tag : Half) (lane : Byte) (a : EditArgs) {own : State → LaneId → EditResult}
    (hown : ∀ L t x y z, own s L = .done t x y z → s.Works L t) : r.Keeps (s.edit p tag lane a own) := by
  have hrefuse : ∀ st, r.Keeps ((s.refuseEdit p tag lane st).clearReservation p) := fun st =>
    (h.answer _ _ _ _ _).modPort _ _
  unfold State.edit
  split
  · exact hrefuse _
  · split
    · exact hrefuse _
    · rename_i hdone
      exact (((h.works (hown _ _ _ _ _ hdone)).answer _ _ _ _ _).modPort _ _).grant

/-! ### Lanes -/

theorem laneClose (h : r.Keeps s) (p : Port) (tag : Half) (lane : Byte) : r.Keeps (s.laneClose p tag lane) := by
  unfold State.laneClose
  split
  · exact h.refuse _ _ _ _ _ _
  · split
    · exact (h.abandonLane _).answer _ _ _ _ _
    · exact h.refuse _ _ _ _ _ _

theorem laneDrain (h : r.Keeps s) (p : Port) (tag : Half) (lane : Byte) : r.Keeps (s.laneDrain p tag lane) := by
  unfold State.laneDrain
  split
  · exact h.refuse _ _ _ _ _ _
  · rename_i L _
    have ht : r.Keeps (s.modLane L fun l => { l with state := .draining }) :=
      h.modLane _ _
    split
    · split
      · exact (ht.modPort _ _).settleLane L
      · exact h.refuse _ _ _ _ _ _
    · exact h.refuse _ _ _ _ _ _

theorem laneStatus (h : r.Keeps s) (p : Port) (tag : Half) (lane : Byte) : r.Keeps (s.laneStatus p tag lane) := by
  unfold State.laneStatus
  split
  · exact h.refuse _ _ _ _ _ _
  · exact h.answer _ _ _ _ _

/-- The ACTIVE copy of a lane that opens is taken of the library. -/
theorem laneOpen (h : r.Keeps s) (p : Port) (tag : Half) (lane : Byte) (a : LaneOpenArgs) :
    r.Keeps (s.laneOpen p tag lane a) := by
  unfold State.laneOpen
  split
  · exact h.refuse _ _ _ _ _ _
  · rename_i L o _
    have hlane : r.Keeps (s.setLane L
        (openedLane a o (s.freeSlots.take a.ringSize.toNat) s.library[o.slot.val])) := by
      refine h.setLane fun w hw => .inr ⟨o.slot, ?_⟩
      rcases hw with hw | hw
      · cases hw
        rfl
      · cases hw
    have hopened : r.Keeps (s.withOpened L a o) := hlane.frame rfl rfl rfl rfl
    rw [State.openLane_eq]
    exact (hopened.assess.raise _ _ _ _).answer _ _ _ _ _

/-! ### The other requests -/

theorem reserve (h : r.Keeps s) (p : Port) (tag : Half) (lane : Byte) (pos : Word) :
    r.Keeps (s.reserve p tag lane pos) := by
  unfold State.reserve
  split
  · exact h.refuse _ _ _ _ _ _
  · split
    · exact h.refuse _ _ _ _ _ _
    · exact (h.modPort _ _).answer _ _ _ _ _

theorem cursorSet (h : r.Keeps s) (p : Port) (tag : Half) (lane : Byte) (pos : Word) :
    r.Keeps (s.cursorSet p tag lane pos) := by
  unfold State.cursorSet
  split
  · exact h.refuse _ _ _ _ _ _
  · exact (h.modPort _ _).answer _ _ _ _ _

theorem listRead (h : r.Keeps s) (p : Port) (tag : Half) (lane n : Byte) : r.Keeps (s.listRead p tag lane n) := by
  unfold State.listRead
  dsimp only
  split
  · exact h.refuse _ _ _ _ _ _
  · split
    · exact (h.modPort _ _).answer _ _ _ _ _
    · exact h.refuse _ _ _ _ _ _

theorem sync (h : r.Keeps s) (p : Port) (tag : Half) (lane : Byte) : r.Keeps (s.sync p tag lane) := by
  unfold State.sync
  dsimp only
  split
  · exact h.refuse _ _ _ _ _ _
  · split
    · split
      · split
        · exact h.modPort _ _
        · exact h.refuse _ _ _ _ _ _
      · exact h.answer _ _ _ _ _
    · exact h.refuse _ _ _ _ _ _

theorem transportSetup (h : r.Keeps s) (p : Port) (tag : Half) (lane : Byte) (a : TransportArgs) :
    r.Keeps (s.transportSetup p tag lane a) := by
  unfold State.transportSetup
  split
  · exact h.refuse _ _ _ _ _ _
  · split
    · split
      · have hset : ∀ k l, r.Keeps (s.setLine k l) := fun _ _ => h.frame rfl rfl rfl rfl
        exact (hset _ _).answer _ _ _ _ _
      · exact h.refuse _ _ _ _ _ _
    · exact h.answer _ _ _ _ _

theorem profileRead (h : r.Keeps s) (p : Port) (tag : Half) (lane form which : Byte) :
    r.Keeps (s.profileRead p tag lane form which) := by
  unfold State.profileRead
  split
  · split
    · exact h.refuse _ _ _ _ _ _
    · exact h.answer _ _ _ _ _
  · split
    · split
      · exact h.refuse _ _ _ _ _ _
      · exact h.answer _ _ _ _ _
    · exact h.refuse _ _ _ _ _ _

/-- A REFRESH takes its ACTIVE copy of the library; its RETIRING copy is the former ACTIVE one. -/
theorem newCopy (h : r.Keeps s) (L : LaneId) (n : Fin 32) : r.Keeps (s.newCopy L n) := by
  refine h.setLane fun w hw => ?_
  rcases hw with hactive | hretiring
  · cases hactive
    exact .inr ⟨n, rfl⟩
  · exact .inl (.inl hretiring)

theorem refresh (h : r.Keeps s) (p : Port) (tag : Half) (lane slot : Byte) :
    r.Keeps (s.refresh p tag lane slot) := by
  unfold State.refresh
  split
  · exact h.refuse _ _ _ _ _ _
  · rename_i L n _
    have ht : r.Keeps (s.newCopy L n) := h.newCopy L n
    exact (ht.when _ (ht.discardRetiring L)).answer _ _ _ _ _

theorem condition (h : r.Keeps s) (p : Port) (tag : Half) (lane form which : Byte) :
    r.Keeps (s.condition p tag lane form which) := by
  unfold State.condition
  split
  · split
    · exact h.answer _ _ _ _ _
    · exact h.refuse _ _ _ _ _ _
  · split
    · split
      · exact h.answer _ _ _ _ _
      · exact h.refuse _ _ _ _ _ _
    · exact h.refuse _ _ _ _ _ _

theorem portSetup (h : r.Keeps s) (p : Port) (tag : Half) (lane width order delivery : Byte) :
    r.Keeps (s.portSetup p tag lane width order delivery) :=
  (h.modPort p (·.setup width order delivery)).answer _ _ _ _ _

theorem noticeMask (h : r.Keeps s) (p : Port) (tag : Half) (lane : Byte) (m : Vector Byte 6) :
    r.Keeps (s.noticeMask p tag lane m) :=
  (h.modPort p (·.maskWith m)).answer _ _ _ _ _

theorem linkUp (h : r.Keeps s) (p : Port) : r.Keeps (s.linkUp p) :=
  (h.modPort p _).raiseTo p _ _ _ _

/-! ### Frames that arrive -/

theorem samplesFor (h : r.Keeps s) (p : Port) (L : LaneId) (e : Landed) : r.Keeps (s.samplesFor p L e) := by
  have hcount : ∀ c, r.Keeps (s.count L c) := fun c => h.modLane _ _
  unfold State.samplesFor
  extract_lets l t
  split
  · exact h.modPort _ _
  · split
    · exact hcount _
    · split
      · exact (hcount _).raise _ _ _ _
      · have ht : s.Places L t := by
          unfold t
          split
          · exact (State.Places.refl L s).setLane ⟨rfl, rfl, Nat.le_refl _, id⟩
          · exact .refl L s
        exact h.places ((ht.cutFrame e).acceptFrame _)

theorem requestArrives (h : r.Keeps s) (p : Port) (bytes : List Byte) : r.Keeps (s.requestArrives p bytes) := by
  unfold State.requestArrives
  dsimp only
  split
  · refine h.setPort _ _ ?_
    unfold PortRec.enqueue
    dsimp only
    split <;> rfl
  · exact (h.setPort _ _).raiseTo _ _ _ _ _

theorem samplesArrive (h : r.Keeps s) (p : Port) (bytes : List Byte) : r.Keeps (s.samplesArrive p bytes) := by
  unfold State.samplesArrive
  dsimp only
  split
  · split
    · exact h.setPort _ _
    · exact (h.samplesFor _ _ _).grant
  · exact h.setPort _ _

theorem frameArrives (h : r.Keeps s) (p : Port) (bytes : List Byte) : r.Keeps (s.frameArrives p bytes) := by
  unfold State.frameArrives
  dsimp only
  split
  · exact h.setPort _ _
  · split
    · exact h.setPort _ _
    · split
      · exact h.requestArrives p bytes
      · split
        · split
          · exact h.samplesArrive p bytes
          · exact h.setPort _ _
        · exact h.setPort _ _

/-! ### Outcomes -/

theorem next (h : r.Keeps s) {t : State} (ht : (.next s : Host.Outcome State Fault Refusal) = .next t) : r.Keeps t := by
  cases ht
  exact h

theorem takePlace {due : Bool} {f : State → State} (hf : ∀ u, r.Keeps u → r.Keeps (f u)) (h : r.Keeps s) {t : State}
    (ht : s.takePlace due f = .next t) : r.Keeps t := by
  unfold State.takePlace at ht
  split at ht <;> cases ht
  · exact hf _ h.event
  · exact h

end State.Keeps

/-- A port from whose queue an entry was taken has sent what it had. -/
theorem PortRec.taking_sent {q u : PortRec} {e : Entry} (h : q.taking e = some u) : u.sent = q.sent := by
  unfold PortRec.taking PortRec.popped at h
  split at h
  · split at h
    · cases h
      unfold PortRec.enqueue
      dsimp only
      split <;> rfl
    · split at h <;> cases h
      rfl
  · cases h

/-- The taking of an entry is its effect, on a state in which nothing else has changed of the three, or nothing. -/
theorem State.take_cases {s t : State} {p : Port} {e : Entry} {f : State → State} (h : s.take p e f = .next t) :
    t = s ∨ ∃ u, s.Keeps u ∧ u.lanes = s.lanes ∧ t = f u := by
  unfold State.take at h
  split at h <;> cases h
  · rename_i q hq
    refine .inr ⟨_, (State.Keeps.refl s).event.setPort _ _ ?_, State.setPort_lanes _ _ _, rfl⟩
    rw [State.port_event, PortRec.taking_sent hq]
  · exact .inl rfl

namespace State.Keeps
variable {s : State}

theorem take {p : Port} {e : Entry} {f : State → State} (hf : ∀ u, s.Keeps u → s.Keeps (f u)) {t : State}
    (ht : s.take p e f = .next t) : s.Keeps t := by
  rcases State.take_cases ht with rfl | ⟨u, hu, -, rfl⟩
  · exact .refl _
  · exact hf u hu

theorem takeEdit {p : Port} {tag : Half} {lane : Byte} {a : EditArgs} {ofRow : Bool}
    {own : State → LaneId → EditResult} (hown : ∀ u L t x y z, own u L = .done t x y z → u.Works L t) {t : State}
    (ht : s.takeEdit p tag lane a ofRow own = .next t) : s.Keeps t := by
  unfold State.takeEdit at ht
  split at ht
  · exact take (fun u hu => hu.edit p tag lane a (hown u)) ht
  · exact (refl s).next ht

theorem analysePosition {L : LaneId} {t : State} (ht : execAnalysePosition L s = .next t) : s.Keeps t := by
  refine takePlace (fun u hu => ?_) (refl s) ht
  have hn := hu.analyseNext L
  exact (hn.when (f := (·.finishAnalysis L)) _ (hn.finishAnalysis L)).grant

theorem renderCompletion {t : State} (ht : execRenderCompletion s = .next t) : s.Keeps t := by
  unfold execRenderCompletion at ht
  split at ht
  · exact ((refl s).event.completeRender _).grant.next ht
  · exact (refl s).next ht

/-- A line command changes no more than its frame lets it. -/
theorem lineCommand {k : LineId} {t : Tick} {level : Level} {c : Instr}
    (hc : c = .perforationEdge k t ∨ c = .coastTimeout k t ∨ c = .lostTimeout k t ∨ c = .searchTimeout k t ∨
      c = .filterSample k t level) {u : State} (hu : exec c s = .next u) : s.Keeps u := by
  obtain ⟨v, hv, -, hframe⟩ := exec_line_command (s := s) hc
  exact hframe.keeps.next (hv.symm.trans hu)

end State.Keeps

/-! ### The rows that neither write the library nor send -/

/-- The rows that can write the Profile Library: PROFILE WRITE and the resets (R143, R170, R171). -/
def writesLibrary : Instr → Bool
  | .profileWrite _ _ _ _ _ | .unitReset _ _ _ | .resetPin => true
  | _ => false

/-- The port whose arbiter takes a frame in the row (R161). -/
def senderOf : Instr → Option Port
  | .release p | .logFrameTaken p | .responseTaken p | .noticeTaken p | .flowFrameTaken p => some p
  | _ => none

theorem exec_keeps {c : Instr} {s t : State} (hw : writesLibrary c = false) (hs : senderOf c = none)
    (h : exec c s = .next t) : s.Keeps t := by
  have hr := State.Keeps.refl s
  cases c with
  | requestFrame p bytes => exact hr.takePlace (fun u hu => hu.frameArrives _ _) h
  | samplesFrame p bytes => exact hr.takePlace (fun u hu => hu.frameArrives _ _) h
  | laneOpen p tag lane a => exact .take (fun u hu => hu.laneOpen _ _ _ _) h
  | laneClose p tag lane => exact .take (fun u hu => hu.laneClose _ _ _) h
  | laneDrain p tag lane => exact .take (fun u hu => hu.laneDrain _ _ _) h
  | laneStatus p tag lane => exact .take (fun u hu => hu.laneStatus _ _ _) h
  | editVeto p tag lane a =>
    exact .takeEdit (fun u L _ _ _ _ hv => State.disposeAt_works (fun w h => h.count (by decide)) hv) h
  | editRestore p tag lane a => exact .takeEdit (fun u L _ _ _ _ hv => State.disposeAt_works (fun _ h => h) hv) h
  | editForce p tag lane a => exact .takeEdit (fun u L _ _ _ _ hv => State.force_works hv) h
  | editSplice p tag lane a => exact .takeEdit (fun u L _ _ _ _ hv => State.splice_works hv) h
  | reserve p tag lane pos => exact .take (fun u hu => hu.reserve _ _ _ _) h
  | cursorSet p tag lane pos => exact .take (fun u hu => hu.cursorSet _ _ _ _) h
  | listRead p tag lane n => exact .take (fun u hu => hu.listRead _ _ _ _) h
  | sync p tag lane => exact .take (fun u hu => hu.sync _ _ _) h
  | transportSetup p tag lane a => exact .take (fun u hu => hu.transportSetup _ _ _ _) h
  | profileRead p tag lane form which => exact .take (fun u hu => hu.profileRead _ _ _ _ _) h
  | refresh p tag lane slot => exact .take (fun u hu => hu.refresh _ _ _ _) h
  | portSetup p tag lane width order delivery => exact .take (fun u hu => hu.portSetup _ _ _ _ _ _) h
  | noticeMask p tag lane masks => exact .take (fun u hu => hu.noticeMask _ _ _ _) h
  | condition p tag lane form which => exact .take (fun u hu => hu.condition _ _ _ _ _) h
  | identify p tag lane => exact .take (fun u hu => hu.answer _ _ _ _ _) h
  | malformedEntry p tag lane => exact .take (fun u hu => hu.answer _ _ _ _ _) h
  | unknownEntry p tag lane => exact .take (fun u hu => hu.answer _ _ _ _ _) h
  | linkDown p => exact hr.takePlace (fun u hu => hu.modPort _ _) h
  | linkUp p => exact hr.takePlace (fun u hu => hu.linkUp _) h
  | renderStart => exact hr.takePlace (fun u hu => hu.grant) h
  | renderCompletion => exact .renderCompletion h
  | syncAnswer L => exact hr.takePlace (fun u hu => hu.answerSyncs _) h
  | analysePosition L => exact .analysePosition h
  | perforationEdge k t => exact .lineCommand (k := k) (t := t) (level := .low) (by simp) h
  | coastTimeout k t => exact .lineCommand (k := k) (t := t) (level := .low) (by simp) h
  | lostTimeout k t => exact .lineCommand (k := k) (t := t) (level := .low) (by simp) h
  | searchTimeout k t => exact .lineCommand (k := k) (t := t) (level := .low) (by simp) h
  | filterSample k t level => exact .lineCommand (k := k) (t := t) (level := level) (by simp) h
  | go L => exact hr.takePlace (fun u hu => hu.sendGo _) h
  | landingPlacement L =>
    exact hr.takePlace (fun u hu => (hu.places (State.Places.refl L u).placeLanding).settleLane _) h
  | finalBlock L => exact hr.takePlace (fun u hu => (hu.fixFinal L).settleLane L) h
  | drainAnalysisFinish L => exact hr.takePlace (fun u hu => (hu.finishAnalysis _).grant) h
  | drainCompletion L => exact hr.takePlace (fun u hu => hu.completeDrain _) h
  | retiringDiscard L => exact hr.takePlace (fun u hu => hu.discardRetiring _) h
  | profileWrite | unitReset | resetPin => cases hw
  | release | logFrameTaken | responseTaken | noticeTaken | flowFrameTaken => cases hs

end Sys2Proof.Machine

/-! PROOF. What writes the Profile Library and what sends (O60), and the ranges of library records and working copies
under every step (O55). -/

namespace Sys2Proof.Machine
open Sys2Proof

/-! ### The rows of the arbiter (R161) -/

/-- One more frame sent by port `p`. -/
def State.sending (s : State) (p : Port) (f : OutFrame) : State := s.modPort p (·.send f)

theorem State.sending_sent (s : State) (p : Port) (f : OutFrame) (q : Port) :
    ((s.sending p f).port q).sent = if q = p then (s.port q).sent ++ [f] else (s.port q).sent := by
  cases p <;> cases q <;> rfl

/-- An arbiter that takes a frame sends it, whatever else the event changes of its port. -/
theorem State.sending_keeps (s : State) (p : Port) (f : OutFrame) {g : PortRec → PortRec}
    (hg : (g (s.port p)).sent = (s.port p).sent ++ [f]) : (s.sending p f).Keeps (s.event.modPort p g) where
  library := by simp [State.sending]
  copies L w hw := .inl (by simpa [State.sending] using hw)
  sent q := by
    rw [State.sending_sent]
    cases p <;> cases q
    · exact hg
    · rfl
    · rfl
    · exact hg

/-- Nothing is chosen on a link that is DOWN (R161). -/
theorem State.chosen_up {s : State} {p : Port} {c : Choice} (h : s.chosen p = some c) : (s.port p).link = .up := by
  unfold State.chosen at h
  dsimp only at h
  split at h
  · assumption
  · cases h

theorem Lane.released_copies (l : Lane) (j : Nat) :
    (l.released j).active = l.active ∧ (l.released j).retiring = l.retiring := by
  unfold Lane.released Lane.complete
  dsimp only
  split <;> exact ⟨rfl, rfl⟩

theorem Lane.logTaken_copies (l : Lane) : l.logTaken.active = l.active ∧ l.logTaken.retiring = l.retiring := by
  unfold Lane.logTaken
  split <;> exact ⟨rfl, rfl⟩

namespace State.Keeps

/-- The frame goes out before the release reaches the lane. -/
theorem release (s : State) (p : Port) (L : LaneId) :
    (s.sending p (s.event.restoredFrame L (s.event.lane L).oldest (s.event.port p).order)).Keeps
      (s.event.release p L) := by
  unfold State.release
  extract_lets l j sent lost t graded
  have hsent := s.sending_keeps p (s.event.restoredFrame L j (s.event.port p).order)
    (g := fun q => { q with pointer := L }.send (s.event.restoredFrame L j q.order)) (by rw [State.port_event]; rfl)
  have hlost := hsent.modPorts (·.loseIf (· == ⟨L, l.firstOf j⟩))
  have ht := (hlost.modLane L (Lane.released · j) fun l _ hw => hw.congr (l.released_copies j).1
    (l.released_copies j).2).assess
  refine State.Keeps.settleLane ?_ L
  unfold graded
  split
  · exact ht
  · exact ht.raise _ _ _ _

/-- The frame goes out before its records are freed. -/
theorem takeLog {s : State} {L : LaneId} {f : LogFrame} {rest : List LogFrame} (h : (s.lane L).logQueue = f :: rest)
    (p : Port) : (s.sending p (logFrameOut L f (s.lane L).list)).Keeps (s.event.takeLog p L) := by
  rw [State.takeLog_eq (s := s.event) h]
  have hsent := s.sending_keeps p (logFrameOut L f (s.lane L).list)
    (g := fun q => { q with pointer := L }.send (logFrameOut L f (s.lane L).list)) rfl
  have hfreed := hsent.modLane L Lane.logTaken fun l _ hw => hw.congr l.logTaken_copies.1 l.logTaken_copies.2
  exact hfreed.assess.settleLane L

end State.Keeps

/-- A frame taken by its port alone is sent on a link that is UP. -/
theorem State.sends_chosen {s t : State} {p : Port} {c : Choice} (hc : s.chosen p = some c) {f : OutFrame}
    {g : PortRec → PortRec} (hg : (g (s.port p)).sent = (s.port p).sent ++ [f])
    (h : (.next (s.event.modPort p g) : Host.Outcome State Fault Refusal) = .next t) :
    (s.port p).link = .up ∧ ∃ f, (s.sending p f).Keeps t :=
  ⟨State.chosen_up hc, f, (s.sending_keeps p f hg).next h⟩

/-- The taking of a frame sends it on a link that is UP and else keeps library and copies; a row of the arbiter whose
frame is not its choice does nothing. -/
theorem exec_sends {c : Instr} {p : Port} {s t : State} (hc : senderOf c = some p) (h : exec c s = .next t) :
    s.Keeps t ∨ ((s.port p).link = .up ∧ ∃ f, (s.sending p f).Keeps t) := by
  have hidle : ∀ {u}, (.next s : Host.Outcome State Fault Refusal) = .next u → s.Keeps u := (State.Keeps.refl s).next
  cases c with
  | release q =>
    cases hc
    change execRelease p s = .next t at h
    unfold execRelease at h
    split at h
    · rename_i L hchosen
      exact .inr ⟨State.chosen_up hchosen, _, (State.Keeps.release s p L).next h⟩
    · exact .inl (hidle h)
  | logFrameTaken q =>
    cases hc
    change execLogFrameTaken p s = .next t at h
    unfold execLogFrameTaken at h
    split at h
    · rename_i L hchosen
      cases hqueue : (s.lane L).logQueue with
      | nil =>
        rw [State.takeLog, State.lane_event, hqueue] at h
        exact .inl ((State.Keeps.refl s).event.next h)
      | cons f rest => exact .inr ⟨State.chosen_up hchosen, _, (State.Keeps.takeLog hqueue p).next h⟩
    · exact .inl (hidle h)
  | responseTaken q =>
    cases hc
    change execResponseTaken p s = .next t at h
    unfold execResponseTaken at h
    split at h
    · rename_i r hchosen
      exact .inr (State.sends_chosen hchosen (f := responseFrame r) (g := (·.takeResponse r)) rfl h)
    · exact .inl (hidle h)
  | noticeTaken q =>
    cases hc
    change execNoticeTaken p s = .next t at h
    unfold execNoticeTaken at h
    split at h
    · rename_i i e hchosen
      exact .inr (State.sends_chosen hchosen (f := noticeFrame i e) (g := (·.takeNotice i e)) rfl h)
    · exact .inl (hidle h)
  | flowFrameTaken q =>
    cases hc
    change execFlowFrameTaken p s = .next t at h
    unfold execFlowFrameTaken at h
    split at h
    · rename_i e hchosen
      exact .inr (State.sends_chosen hchosen (f := flowFrame e) (g := (·.takeFlow e)) rfl h)
    · exact .inl (hidle h)
  | _ => cases hc

/-! ### The rows that write the library (R143) -/

/-- The part with library `lib`. -/
def State.withLibrary (s : State) (lib : Vector Profile 32) : State := { s with library := lib }

/-- Every record of a library is in range and ordered. -/
def libraryInRange (lib : Vector Profile 32) : Prop := ∀ n : Fin 32, lib[n.val].inRange

theorem libraryInRange_set {lib : Vector Profile 32} (h : libraryInRange lib) (n : Fin 32) {x : Profile}
    (hx : x.inRange) : libraryInRange (lib.set n.val x) := fun m => by
  rw [Vector.getElem_set]
  split
  · exact hx
  · exact h m

theorem libraryInRange_default : libraryInRange (Vector.replicate 32 Profile.default) := fun n => by
  rw [Vector.getElem_replicate]
  exact Profile.default_inRange

theorem State.port_withLibrary (s : State) (lib : Vector Profile 32) (p : Port) :
    (s.withLibrary lib).port p = s.port p := by
  cases p <;> rfl

/-- Another library under the same lanes. -/
theorem State.Keeps.withLibrary {s u : State} (h : s.Keeps u) (hlanes : u.lanes = s.lanes) (lib : Vector Profile 32) :
    (s.withLibrary lib).Keeps (u.withLibrary lib) where
  library := rfl
  copies L w hw := .inl (State.lane_congr hlanes L ▸ hw)
  sent p := by
    rw [State.port_withLibrary, State.port_withLibrary]
    exact h.sent p

/-- After a reset the lanes hold no copy, the library its default records, and each port has sent what it had. -/
theorem State.Keeps.ofReset {s t : State} (hlanes : t.lanes = Vector.replicate 6 Lane.reset)
    (hlibrary : t.library = Vector.replicate 32 Profile.default) (hsent : ∀ p, (t.port p).sent = (s.port p).sent) :
    (s.withLibrary (Vector.replicate 32 Profile.default)).Keeps t where
  library := hlibrary
  copies L w hw := by simp [State.lane, hlanes, Lane.Holds, Lane.reset] at hw
  sent p := by
    rw [State.port_withLibrary]
    exact hsent p

theorem PortRec.unitReset_sent (q : PortRec) (order : Nat) : (q.unitReset order).sent = q.sent := by
  unfold PortRec.unitReset
  dsimp only
  split <;> rfl

/-- A row that writes the library leaves it in range, and sends nothing. -/
theorem exec_writes {c : Instr} {s t : State} (hc : writesLibrary c = true) (h : exec c s = .next t) :
    ∃ lib, (libraryInRange s.library → libraryInRange lib) ∧ (s.withLibrary lib).Keeps t := by
  have hidle : ∃ lib, (libraryInRange s.library → libraryInRange lib) ∧ (s.withLibrary lib).Keeps s :=
    ⟨s.library, id, .refl s⟩
  cases c with
  | profileWrite p tag lane slot r =>
    change execProfileWrite p tag lane slot r s = .next t at h
    rcases State.take_cases h with rfl | ⟨u, hu, hlanes, rfl⟩
    · exact hidle
    · unfold State.profileWrite
      split
      · exact ⟨s.library, id, hu.refuse _ _ _ _ _ _⟩
      · rename_i n held hcheck
        refine ⟨u.library.set n.val held, fun hs => ?_, (hu.withLibrary hlanes _).answer _ _ _ _ _⟩
        rw [hu.library]
        exact libraryInRange_set hs n (checkWrite_inRange hcheck)
  | unitReset p tag lane =>
    change execUnitReset p tag lane s = .next t at h
    rcases State.take_cases h with rfl | ⟨u, hu, -, rfl⟩
    · exact hidle
    · refine ⟨_, fun _ => libraryInRange_default, .ofReset rfl rfl fun q => ?_⟩
      rw [← hu.sent q]
      cases q <;> exact PortRec.unitReset_sent _ _
  | resetPin =>
    cases h
    exact ⟨_, fun _ => libraryInRange_default, .ofReset rfl rfl fun q => by cases q <;> rfl⟩
  | _ => cases hc

/-! ### The rows by name -/

theorem writesLibrary_iff (c : Instr) : writesLibrary c = true ↔
    (∃ p tag lane slot r, c = .profileWrite p tag lane slot r) ∨ (∃ p tag lane, c = .unitReset p tag lane) ∨
      c = .resetPin := by
  cases c <;> simp [writesLibrary]

theorem senderOf_iff (c : Instr) (p : Port) : senderOf c = some p ↔
    c = .release p ∨ c = .logFrameTaken p ∨ c = .responseTaken p ∨ c = .noticeTaken p ∨ c = .flowFrameTaken p := by
  cases c <;> simp [senderOf]

/-! ### The step -/

/-- Every command's meaning: it keeps library and copies and sends nothing, or its arbiter sends one frame, or it writes
the library. -/
theorem exec_cases {c : Instr} {s t : State} (h : exec c s = .next t) :
    s.Keeps t ∨
    (∃ p f, senderOf c = some p ∧ (s.port p).link = .up ∧ (s.sending p f).Keeps t) ∨
    ∃ lib, writesLibrary c = true ∧ (libraryInRange s.library → libraryInRange lib) ∧ (s.withLibrary lib).Keeps t := by
  cases hw : writesLibrary c with
  | true =>
    obtain ⟨lib, hrange, ht⟩ := exec_writes hw h
    exact .inr (.inr ⟨lib, rfl, hrange, ht⟩)
  | false =>
    cases hs : senderOf c with
    | none => exact .inl (exec_keeps hw hs h)
    | some p =>
      rcases exec_sends hs h with ht | ⟨hup, f, ht⟩
      · exact .inl ht
      · exact .inr (.inl ⟨p, f, rfl, hup, ht⟩)

theorem State.profilesInRange_iff (s : State) : s.profilesInRange ↔
    libraryInRange s.library ∧ ∀ L w, (s.lane L).Holds w → w.profile.inRange := by
  refine and_congr Iff.rfl (forall_congr' fun L => ?_)
  simp only [Lane.Holds, or_imp, forall_and]

/-- Records in range stay so where each copy is an old one or taken of the library. -/
theorem State.Keeps.profilesInRange {s t : State} (h : s.Keeps t) (hs : s.profilesInRange) : t.profilesInRange := by
  rw [State.profilesInRange_iff] at hs ⊢
  obtain ⟨hlibrary, hcopies⟩ := hs
  refine ⟨h.library ▸ hlibrary, fun L w hw => ?_⟩
  rcases h.copies L w hw with hold | ⟨n, hn⟩
  · exact hcopies L w hold
  · rw [hn]
    exact hlibrary n

theorem exec_profilesInRange {c : Instr} {s t : State} (h : exec c s = .next t) (hs : s.profilesInRange) :
    t.profilesInRange := by
  rcases exec_cases h with ht | ⟨p, f, -, -, ht⟩ | ⟨lib, -, hrange, ht⟩
  · exact ht.profilesInRange hs
  · refine ht.profilesInRange ?_
    simpa [State.profilesInRange, State.sending] using hs
  · refine ht.profilesInRange ?_
    rw [State.profilesInRange_iff] at hs ⊢
    exact ⟨hrange hs.1, hs.2⟩

/-- A tick keeps library and copies and sends nothing. -/
theorem runFor_keeps (s : State) (d : Nat) : s.Keeps (s.runFor d) := ((State.LineFrame.refl s).runTicks _ _).keeps

/-- Settles O55: the working copies are old ones or taken of the library (`State.Keeps`), and a record written to the
library is in range by the checks and clamps of PROFILE WRITE. -/
theorem stepKeepsProfilesInRange : Obligations.StepKeepsProfilesInRange := by
  intro s t h hs
  unfold step at h
  split at h
  · exact exec_profilesInRange h hs
  · cases h
    exact (runFor_keeps s 1).profilesInRange hs

/-- Settles O60: of the three cases of `exec_cases`, one sends, one writes the library, and neither does the other's. -/
theorem onlyTheirEventsWriteTheLibraryAndSend : Obligations.OnlyTheirEventsWriteTheLibraryAndSend := by
  intro s t h
  have hlib : ∀ {u : State}, u.Keeps t → u.library = s.library → ∀ i : Fin 32, t.library[i.val] = s.library[i.val] := by
    intro u ht hu i
    rw [ht.library, hu]
  unfold step at h
  split at h
  case h_2 hpending =>
    cases h
    exact ⟨.inl (hlib (runFor_keeps s 1) rfl), fun p => .inl ((runFor_keeps s 1).sent p)⟩
  case h_1 c rest hpending =>
    have hport : ∀ p, ({ s with pending := rest } : State).port p = s.port p := fun p => by cases p <;> rfl
    rcases exec_cases h with ht | ⟨p, f, hs, hup, ht⟩ | ⟨lib, hw, -, ht⟩
    · exact ⟨.inl (hlib ht rfl), fun p => .inl ((ht.sent p).trans (congrArg _ (hport p)))⟩
    · refine ⟨.inl (hlib ht (by simp [State.sending])), fun q => ?_⟩
      have hsent := ht.sent q
      rw [State.sending_sent, hport] at hsent
      split at hsent
      · rename_i hq
        subst hq
        exact .inr ⟨⟨f, hsent⟩, hport q ▸ hup, c, rest, hpending, (senderOf_iff c q).1 hs⟩
      · exact .inl hsent
    · refine ⟨.inr ?_, fun q => .inl ?_⟩
      · rcases (writesLibrary_iff c).1 hw with ⟨p, tag, lane, slot, r, rfl⟩ | ⟨p, tag, lane, rfl⟩ | rfl
        · exact .inl ⟨p, tag, lane, slot, r, rest, hpending⟩
        · exact .inr (.inl ⟨p, tag, lane, rest, hpending⟩)
        · exact .inr (.inr ⟨rest, hpending⟩)
      · rw [ht.sent q, State.port_withLibrary, hport]

end Sys2Proof.Machine

/-! PROOF. The requests of the Profile Library: PROFILE WRITE (R144, R145), PROFILE READ (R147), REFRESH and the discard
of a RETIRING copy (R149, R150). The statements O29, O30 and O31. -/

namespace Sys2Proof.Machine
open Sys2Proof

/-! ### PROFILE WRITE -/

theorem exec_profileWrite {s : State} {p : Port} {tag : Half} {lane slot : Byte} {r : ProfileRaw} {rest : List Entry}
    (h : s.offers p (.whole tag lane (.profileWrite slot r)) rest) :
    exec (.profileWrite p tag lane slot r) s = .next ((s.took p rest).profileWrite p tag lane slot r) :=
  State.take_offers h (·.profileWrite p tag lane slot r)

theorem vector_eq_iff {n : Nat} {v w : Vector Nat n} : v = w ↔ ∀ j : Fin n, v[j.val] = w[j.val] :=
  ⟨fun h _ => h ▸ rfl, fun h => Vector.ext fun i hi => h ⟨i, hi⟩⟩

/-- Some field of the carried record lies outside its range, so that the held one differs there (R145). -/
def clampsField (r : ProfileRaw) (held : Profile) : Prop :=
  held.t ≠ r.t.toNat ∨ held.g ≠ r.g.toNat ∨ held.lmax ≠ r.lmax.toNat ∨ held.ls ≠ r.ls.toNat ∨
    held.f ≠ r.f.toNat ∨ held.d ≠ r.d.toNat ∨ held.h ≠ r.h.toNat ∨ held.mu ≠ r.mu.toNat ∨
    (∃ j : Fin 12, held.levels[j.val] ≠ r.levels[j.val].toNat) ∨
    ∃ j : Fin 12, held.alphas[j.val] ≠ r.alphas[j.val].toNat

/-- The held record is the carried one exactly where no field was clamped. -/
theorem clampedProfile_eq_carried_iff (r : ProfileRaw) (m : HumMode) :
    clampedProfile r m = carriedProfile r m ↔ ¬ clampsField r (clampedProfile r m) := by
  have hlevels : (clampedProfile r m).levels = (carriedProfile r m).levels ↔
      ∀ j : Fin 12, (clampedProfile r m).levels[j.val] = r.levels[j.val].toNat := by
    simp only [vector_eq_iff, carriedProfile_level]
  have halphas : (clampedProfile r m).alphas = (carriedProfile r m).alphas ↔
      ∀ j : Fin 12, (clampedProfile r m).alphas[j.val] = r.alphas[j.val].toNat := by
    simp only [vector_eq_iff, carriedProfile_alpha]
  simp only [clampsField, not_or, not_exists, ne_eq, Classical.not_not, ← hlevels, ← halphas]
  constructor
  · intro h
    rw [h]
    exact ⟨rfl, rfl, rfl, rfl, rfl, rfl, rfl, rfl, rfl, rfl⟩
  · rintro ⟨ht, hg, hlmax, hls, hf, hd, hh, hmu, hl, ha⟩
    unfold clampedProfile carriedProfile at *
    rw [Profile.mk.injEq]
    exact ⟨ht, hg, hlmax, rfl, hls, rfl, hf, hd, hh, hmu, hl, ha, rfl, rfl, rfl⟩

/-- A write none of whose checks fails (R144, R145). -/
theorem State.profileWrite_held {s : State} (p : Port) (tag : Half) (lane : Byte) {slot : Byte} {r : ProfileRaw}
    {n : Fin 32} {m : HumMode} (h : checkWrite slot r = some (n, clampedProfile r m)) :
    s.profileWrite p tag lane slot r =
      ({ s with library := s.library.set n.val (clampedProfile r m) } : State).replied p tag lane
        (if clampedProfile r m = carriedProfile r m then .done else .clamped)
        ([0x30#8, slot] ++ (clampedProfile r m).wire) := by
  simp only [State.profileWrite, h]
  rfl

/-- A write one of whose checks fails. -/
theorem State.profileWrite_refused {s : State} (p : Port) (tag : Half) (lane : Byte) {slot : Byte} {r : ProfileRaw}
    (h : checkWrite slot r = none) :
    s.profileWrite p tag lane slot r = s.replied p tag lane .range (0x30#8 :: List.replicate 81 0#8) := by
  simp only [State.profileWrite, h]
  rfl

/-- Settles O29: `checkWrite_iff` says which writes pass, and `clampedProfile_eq_carried_iff` which of them are answered
DONE. -/
theorem profileWriteClampsAndReplaces : Obligations.ProfileWriteClampsAndReplaces := by
  intro s p tag lane slot r rest hoffers
  have hexec := exec_profileWrite hoffers
  obtain ⟨m, hm⟩ : ∃ m : HumMode, m = if r.mode = 0#8 then .fixed else .tracked := ⟨_, rfl⟩
  refine ⟨clampedProfile r m, ⟨rfl, rfl, rfl, rfl, rfl, hm, rfl, rfl, rfl, rfl, clampedProfile_level r m,
    clampedProfile_alpha r m, rfl, rfl, rfl⟩, ?_⟩
  intro bad clamped written
  have hbad : bad ↔ 31 < slot.toNat ∨ 1 < r.mode.toNat ∨ ¬ (clampedProfile r m).Ordered := by
    rw [Profile.not_ordered_iff]
  refine ⟨fun h => ?_, fun h n hn => ?_⟩
  · rw [hexec, State.profileWrite_refused]
    rw [Option.eq_none_iff_forall_ne_some]
    rintro ⟨n, held⟩ hcheck
    obtain ⟨hslot, k, hk, rfl, hordered⟩ := checkWrite_iff.1 hcheck
    obtain ⟨hmode, rfl⟩ := modeOf_iff.1 hk
    rw [hbad, hm] at h
    rcases h with h | h | h
    · omega
    · omega
    · exact h hordered
  · rw [hbad, not_or, not_or, Classical.not_not] at h
    obtain ⟨-, hmode, hordered⟩ := h
    have hcheck : checkWrite slot r = some (n, clampedProfile r m) :=
      checkWrite_iff.2 ⟨hn, m, modeOf_iff.2 ⟨Nat.le_of_not_lt hmode, hm⟩, rfl, hordered⟩
    have hiff : clampedProfile r m = carriedProfile r m ↔ ¬ clamped := clampedProfile_eq_carried_iff r m
    refine ⟨fun hc => ?_, fun hc => ?_⟩
    · show exec _ s = _
      rw [hexec, State.profileWrite_held p tag lane hcheck, if_neg (fun h => hiff.1 h hc), State.took_library]
    · show exec _ s = _
      rw [hexec, State.profileWrite_held p tag lane hcheck, if_pos (hiff.2 hc), State.took_library]

/-! ### PROFILE READ -/

theorem exec_profileRead {s : State} {p : Port} {tag : Half} {lane form which : Byte} {rest : List Entry}
    (h : s.offers p (.whole tag lane (.profileRead form which)) rest) :
    exec (.profileRead p tag lane form which) s = .next ((s.took p rest).profileRead p tag lane form which) :=
  State.take_offers h (·.profileRead p tag lane form which)

section
variable (s : State) (p : Port) (tag : Half) (lane : Byte) {form which : Byte}

/-- No other form than the three. -/
theorem State.profileRead_form (h : 2 < form.toNat) :
    s.profileRead p tag lane form which = s.replied p tag lane .range (0x31#8 :: List.replicate 87 0#8) := by
  have hne : ∀ b : Byte, b.toNat ≤ 2 → form ≠ b := by
    rintro b hb rfl
    omega
  rw [State.profileRead, if_neg (hne 0#8 (by decide)), if_neg (not_or.2 ⟨hne 1#8 (by decide), hne 2#8 (by decide)⟩)]
  rfl

theorem State.profileRead_noSlot (h : 31 < which.toNat) :
    s.profileRead p tag lane 0#8 which = s.replied p tag lane .range (0x31#8 :: List.replicate 87 0#8) := by
  simp only [State.profileRead, slotNumber_none h]
  rfl

theorem State.profileRead_slot {n : Fin 32} (h : which.toNat = n.val) :
    s.profileRead p tag lane 0#8 which = s.replied p tag lane .done
      ([0x31#8, 0#8, which, 0#8, 0#8, 0#8, 0#8, 0#8] ++ s.library[n.val].wire) := by
  simp only [State.profileRead, slotNumber_eq h]
  rfl

variable (hform : form = 1#8 ∨ form = 2#8)
include hform

theorem State.profileRead_copyRefused {st : Status} (h : s.copyRead (form == 2#8) which = .inl st) :
    s.profileRead p tag lane form which = s.replied p tag lane st (0x31#8 :: List.replicate 87 0#8) := by
  have h0 : form ≠ 0#8 := by rcases hform with rfl | rfl <;> decide
  rw [State.profileRead, if_neg h0, if_pos hform, h]
  rfl

theorem State.profileRead_copy {w : WorkingCopy} (h : s.copyRead (form == 2#8) which = .inr w) :
    s.profileRead p tag lane form which = s.replied p tag lane .done
      ([0x31#8, form, which] ++ beBytes 4 w.generation ++ [BitVec.ofNat 8 w.slot] ++ w.profile.wire) := by
  have h0 : form ≠ 0#8 := by rcases hform with rfl | rfl <;> decide
  rw [State.profileRead, if_neg h0, if_pos hform, h]
  rfl

end

/-- The copy a lane form reads on an open lane (R147). -/
theorem State.copyRead_open {s : State} {which : Byte} {L : LaneId} (hL : which.toNat = L.val)
    (ho : (s.lane L).state ≠ .closed) (retiring : Bool) {w : WorkingCopy}
    (hw : (if retiring then (s.lane L).retiring else (s.lane L).active) = some w) :
    s.copyRead retiring which = .inr w := by
  simp only [State.copyRead, laneOf_of_toNat hL, (Lane.isOpen_iff _).2 ho, if_true]
  cases retiring
  · rw [if_neg Bool.false_ne_true] at hw ⊢
    rw [hw]
  · rw [if_pos rfl] at hw ⊢
    rw [hw]

/-- Settles O30: the forms in turn; of a lane form, the checks of `State.copyRead`. -/
theorem profileReadReturnsARecord : Obligations.ProfileReadReturnsARecord := by
  intro s p tag lane form which rest hoffers answer refused
  have hexec := exec_profileRead hoffers
  refine ⟨fun h => ?_, ?_, ?_, fun hform => ?_⟩
  · exact hexec.trans (congrArg _ (State.profileRead_form _ p tag lane h))
  · rintro rfl h
    exact hexec.trans (congrArg _ (State.profileRead_noSlot _ p tag lane h))
  · rintro rfl n hn
    have hread := State.profileRead_slot (s.took p rest) p tag lane hn
    rw [State.took_library] at hread
    exact hexec.trans (congrArg _ hread)
  have hrefused : ∀ st, (s.took p rest).copyRead (form == 2#8) which = .inl st → refused st := fun st h =>
    hexec.trans (congrArg _ (State.profileRead_copyRefused _ p tag lane hform h))
  refine ⟨fun h => hrefused _ ?_, fun L hL => ⟨fun hc => hrefused _ ?_, fun ho => ⟨fun h2 hr => hrefused _ ?_,
    fun w hw => ?_⟩⟩⟩
  · rw [State.copyRead, laneOf_none h]
  · simp only [State.copyRead, laneOf_of_toNat hL, State.took_lane, (Lane.isOpen_false_iff _).2 hc]
    rfl
  · subst h2
    simp only [State.copyRead, laneOf_of_toNat hL, State.took_lane, (Lane.isOpen_iff _).2 ho, hr]
    rfl
  · refine hexec.trans (congrArg _ (State.profileRead_copy _ p tag lane hform (State.copyRead_open hL ?_ _ ?_)))
    · rwa [State.took_lane]
    · rw [State.took_lane]
      rcases hform with rfl | rfl
      · exact hw
      · exact hw

/-! ### REFRESH (R149, R150) -/

theorem exec_refresh {s : State} {p : Port} {tag : Half} {lane slot : Byte} {rest : List Entry}
    (h : s.offers p (.whole tag lane (.refresh slot)) rest) :
    exec (.refresh p tag lane slot) s = .next ((s.took p rest).refresh p tag lane slot) :=
  State.take_offers h (·.refresh p tag lane slot)

/-- An unreleased block whose analysis has started carries the generation (R150). -/
theorem State.carried_iff (s : State) (L : LaneId) (generation : Nat) : s.carried L generation = true ↔
    ∃ j, (s.lane L).oldest ≤ j ∧ j < (s.lane L).oldest + (s.lane L).ring.length ∧
      (s.lane L).start + 256 * j < (s.lane L).analysis ∧
      (s.store.checkpoint ((s.lane L).slotOf j)).latch.generation = generation := by
  simp only [State.carried, List.any_eq_true, Lane.mem_ordinals, Bool.and_eq_true, decide_eq_true_eq, beq_iff_eq,
    and_assoc]
  rfl

theorem State.refresh_refused (s : State) (p : Port) (tag : Half) {lane slot : Byte} {st : Status}
    (h : s.checkRefresh lane slot = .inl st) :
    s.refresh p tag lane slot = s.replied p tag lane st (0x32#8 :: List.replicate 5 0#8) := by
  simp only [State.refresh, h]
  rfl

/-- The lane with its new ACTIVE copy, and `retiring` as its RETIRING one. -/
def Lane.refreshed (l : Lane) (x : Profile) (generation : Nat) (n : Fin 32) (retiring : Option WorkingCopy) : Lane :=
  { l with active := some ⟨x, generation, n.val⟩, retiring := retiring }

theorem Lane.generation_of {l : Lane} {w : WorkingCopy} (h : l.active = some w) : l.generation = w.generation := by
  rw [Lane.generation, h]
  rfl

theorem State.newCopy_eq {s : State} {L : LaneId} {w : WorkingCopy} (hw : (s.lane L).active = some w) (n : Fin 32) :
    s.newCopy L n = s.setLane L ((s.lane L).refreshed s.library[n.val] (w.generation + 1) n (some w)) := by
  rw [State.newCopy, State.modLane, Lane.generation_of hw, hw]
  rfl

/-- The former copy is discarded if no block carries its generation (R150). -/
theorem State.newCopy_discardDue {s : State} {L : LaneId} {w : WorkingCopy} (hw : (s.lane L).active = some w)
    (n : Fin 32) : (s.newCopy L n).discardDue L = !s.carried L w.generation := by
  have hlane : (s.newCopy L n).lane L = (s.lane L).refreshed s.library[n.val] (w.generation + 1) n (some w) := by
    rw [State.newCopy_eq hw, State.lane_setLane_same]
  simp only [State.discardDue, hlane, Lane.refreshed, State.carried]
  rfl

/-- The lane after steps 1 to 3 of R149: the former copy is RETIRING where a block carries its generation. -/
theorem State.newCopy_settled {s : State} {L : LaneId} {w : WorkingCopy} (hw : (s.lane L).active = some w)
    (n : Fin 32) : (s.newCopy L n).when ((s.newCopy L n).discardDue L) (·.discardRetiring L) =
      s.setLane L ((s.lane L).refreshed s.library[n.val] (w.generation + 1) n
        (if s.carried L w.generation then some w else none)) := by
  rw [State.newCopy_discardDue hw, State.newCopy_eq hw]
  cases s.carried L w.generation
  · rw [Bool.not_false, State.when_true, State.discardRetiring, State.modLane, State.lane_setLane_same,
      State.setLane_setLane]
    rfl
  · rfl

theorem State.refresh_taken {s : State} (p : Port) (tag : Half) {lane slot : Byte} {L : LaneId} {n : Fin 32}
    {w : WorkingCopy} (h : s.checkRefresh lane slot = .inr (L, n)) (hw : (s.lane L).active = some w) :
    s.refresh p tag lane slot =
      (s.setLane L ((s.lane L).refreshed s.library[n.val] (w.generation + 1) n
        (if s.carried L w.generation then some w else none))).replied p tag lane .done
        (0x32#8 :: beBytes 4 (w.generation + 1) ++ [flagByte (s.carried L w.generation)]) := by
  simp only [State.refresh, h, State.newCopy_settled hw, State.lane_setLane_same]
  cases s.carried L w.generation <;> rfl

/-! ### The checks of REFRESH and what the taking of its entry leaves of them -/

theorem State.took_checkRefresh (s : State) (p : Port) (rest : List Entry) (lane slot : Byte) :
    (s.took p rest).checkRefresh lane slot = s.checkRefresh lane slot := by
  cases p <;> rfl

theorem State.took_carried (s : State) (p : Port) (rest : List Entry) (L : LaneId) (generation : Nat) :
    (s.took p rest).carried L generation = s.carried L generation := by
  cases p <;> rfl

theorem State.checkRefresh_of {s : State} {lane slot : Byte} {L : LaneId} {n : Fin 32} (hL : lane.toNat = L.val)
    (hn : slot.toNat = n.val) : s.checkRefresh lane slot =
      if (s.lane L).state = .closed then .inl .nolane
      else if (s.lane L).retiring ≠ none then .inl .busy
      else if 4294967295 ≤ (s.lane L).generation then .inl .range
      else .inr (L, n) := by
  simp only [State.checkRefresh, laneOf_of_toNat hL, slotNumber_eq hn, Lane.isOpen_false_iff, Option.isSome_iff_ne_none]
  rfl

theorem exec_retiringDiscard {s : State} {L : LaneId} (h : s.discardDue L = true) :
    exec (.retiringDiscard L) s = .next (s.event.discardRetiring L) :=
  State.takePlace_due h (·.discardRetiring L)

/-- Settles O31: the first check of `State.checkRefresh` that fails names the status; a REFRESH that passes keeps the
former copy as `State.carried_iff` says, and so does RETIRING_DISCARD. -/
theorem refreshAndRetiringCopies : Obligations.RefreshAndRetiringCopies := by
  refine ⟨?refresh, ?discard⟩
  case refresh =>
    intro s p tag lane slot rest hoffers refused
    have hexec := exec_refresh hoffers
    have hrefused : ∀ st, s.checkRefresh lane slot = .inl st → refused st := fun st h =>
      hexec.trans (congrArg _ (State.refresh_refused _ p tag (by rwa [State.took_checkRefresh])))
    refine ⟨fun h => hrefused _ ?_, ?_⟩
    · unfold State.checkRefresh
      rcases h with h | h
      · rw [laneOf_none h]
      · rw [slotNumber_none h]
        cases laneOf lane <;> rfl
    intro L n hL hn l
    have hcheck := State.checkRefresh_of (s := s) hL hn
    refine ⟨fun hc => hrefused _ ?_, fun ho hr => hrefused _ ?_, fun w hw ho hr => ⟨fun hmax => hrefused _ ?_, ?_⟩⟩
    · rw [hcheck, if_pos hc]
    · rw [hcheck, if_neg ho, if_pos hr]
    · rw [hcheck, if_neg ho, if_neg (not_not_intro hr), Lane.generation_of hw, if_pos hmax]
    intro hmax carried taken
    rw [if_neg ho, if_neg (not_not_intro hr), Lane.generation_of hw, if_neg (Nat.not_le.2 hmax),
      ← s.took_checkRefresh p rest] at hcheck
    have hw' : ((s.took p rest).lane L).active = some w := by rwa [State.took_lane]
    rw [State.refresh_taken p tag hcheck hw', State.took_lane, State.took_library, State.took_carried] at hexec
    have hcarried : carried ↔ s.carried L w.generation = true := (s.carried_iff L w.generation).symm
    rw [hcarried]
    refine ⟨fun hc => ?_, fun hc => ?_⟩
    · rw [hc] at hexec
      exact hexec
    · rw [Bool.eq_false_iff.2 hc] at hexec
      exact hexec
  case discard =>
    intro s L w l hretiring hfree
    have hnot : s.carried L w.generation = false := by
      rw [Bool.eq_false_iff, ne_eq, State.carried_iff]
      rintro ⟨j, hold, hring, hstarted, hgen⟩
      exact hfree j hold hring hstarted hgen
    have hdue : s.discardDue L = true := by
      rw [State.discardDue, hretiring]
      simp only [hnot, Bool.not_false]
    exact exec_retiringDiscard hdue

end Sys2Proof.Machine

/-! PROOF. The limits of a port (R157, R159, R161, R163, R165, R168, R172, R174) as a structure, each change of a port
inside them, and the relation `State.Serves` of the changes that neither move a link nor begin or end a request. -/

namespace Sys2Proof.Machine
open Sys2Proof

/-! ### The limits of a port, field by field -/

/-- The settings and lists R165 gives a port whose link is DOWN. -/
def PortRec.Blank (q : PortRec) : Prop :=
  q.width = .w24 ∧ q.order = .little ∧ q.delivery = true ∧ q.queue = [] ∧ q.inProgress = none ∧ q.parked = [] ∧
    q.answers = [] ∧ q.flow = [] ∧ q.cursor = ⟨0, 0⟩ ∧ q.reservation = none ∧ ∀ c : Fin 6, q.masks[c.val] = false

/-- The limits of a notice entry of index `i` (R174, R175). -/
def NoticeEntry.Fits (e : NoticeEntry) (i : Nat) : Prop := 1 ≤ e.count ∧ e.count ≤ 255 ∧ e.code.category.val = i / 7

/-- The limits of `PortRec.bounded` by name, less the two lengths that follow from the others. -/
structure PortRec.Within (q : PortRec) : Prop where
  queue : q.queue.length ≤ 8
  parked : q.parkedCount ≤ 4
  replies : (q.answers.filter fun r => !r.ofParked).length = if q.inProgress = none then 0 else 1
  flow : (q.flow.map FlowEntry.lane).Nodup
  crcError : q.crcError ≤ 4294967295
  malformed : q.malformed ≤ 4294967295
  stray : q.stray ≤ 4294967295
  dropped : q.dropped ≤ 4294967295
  entries : ∀ i : Fin 42, ∀ e, q.entries[i.val] = some e → e.Fits i.val
  down : q.link = .down → q.Blank

/-- A response answers the request in progress or a parked one (R158, R159). -/
theorem PortRec.answers_length (q : PortRec) : q.answers.length =
    (q.answers.filter (·.ofParked)).length + (q.answers.filter fun r => !r.ofParked).length := by
  simpa [List.countP_eq_length_filter, Function.comp_def] using
    List.length_eq_countP_add_countP (·.ofParked) (l := q.answers)

theorem PortRec.bounded_iff_within (q : PortRec) : q.bounded ↔ q.Within := by
  constructor
  · rintro ⟨hqueue, hparked, -, hreplies, -, hflow, hcrc, hmalformed, hstray, hdropped, hentries, hdown⟩
    exact ⟨hqueue, hparked, hreplies, hflow, hcrc, hmalformed, hstray, hdropped, hentries, hdown⟩
  · intro h
    have hanswers : q.answers.length ≤ 5 := by
      have hparked := h.parked
      have hreplies := h.replies
      rw [PortRec.parkedCount] at hparked
      rw [q.answers_length, hreplies]
      split <;> omega
    have hlanes : q.flow.length ≤ 6 := by
      simpa using h.flow.length_le_card
    exact ⟨h.queue, h.parked, hanswers, h.replies, hlanes, h.flow, h.crcError, h.malformed, h.stray, h.dropped,
      h.entries, h.down⟩

namespace PortRec.Within
variable {q : PortRec} (h : q.Within)
include h

/-- With no request in progress every response waiting answers a parked one. -/
theorem replies_idle (hidle : q.inProgress = none) : (q.answers.filter fun r => !r.ofParked) = [] := by
  simpa [hidle] using h.replies

/-! ### Notices, reservations and counters -/

/-- Any entry set to one that fits its index, or cleared. -/
theorem setEntry (i : Fin 42) {x : Option NoticeEntry} (hx : ∀ e, x = some e → e.Fits i.val) :
    ({ q with entries := q.entries.set i.val x } : PortRec).Within :=
  { h with
    entries := fun j e he => by
      rw [Vector.getElem_set] at he
      split at he
      · rename_i hij
        exact hij ▸ hx e he
      · exact h.entries j e he }

omit h in
theorem foldNotice_fits (code : NoticeCode) (who : Option LaneId) (pos d order : Nat) (x : Option NoticeEntry) :
    (foldNotice code pos d order x).Fits (entryIndex code.category who).val := by
  have hindex : code.category.val = (entryIndex code.category who).val / 7 := by
    cases who <;> simp only [entryIndex] <;> omega
  cases x with
  | none => exact ⟨Nat.le_refl 1, (by decide : 1 ≤ 255), hindex⟩
  | some e => exact ⟨Nat.le_min.2 ⟨Nat.le_add_left 1 _, by decide⟩, Nat.min_le_right _ _, hindex⟩

theorem enter (code : NoticeCode) (who : Option LaneId) (pos d order : Nat) :
    (q.enter code who pos d order).Within :=
  h.setEntry _ fun e he => by
    cases he
    exact foldNotice_fits code who pos d order _

theorem loseIf (b : Reservation → Bool) : (q.loseIf b).Within :=
  { h with
    down := fun hd => by
      obtain ⟨h1, h2, h3, h4, h5, h6, h7, h8, h9, h10, h11⟩ := h.down hd
      exact ⟨h1, h2, h3, h4, h5, h6, h7, h8, h9, by rw [PortRec.loseIf, h10]; rfl, h11⟩ }

theorem countCrc : q.countCrc.Within := { h with crcError := Nat.min_le_right _ _ }
theorem countMalformed : q.countMalformed.Within := { h with malformed := Nat.min_le_right _ _ }
theorem countStray : q.countStray.Within := { h with stray := Nat.min_le_right _ _ }
theorem countDropped : q.countDropped.Within := { h with dropped := Nat.min_le_right _ _ }

/-! ### Flow entries (R163) -/

theorem setFlow (hup : q.link = .up) {es : List FlowEntry} (hes : (es.map FlowEntry.lane).Nodup) :
    ({ q with flow := es } : PortRec).Within :=
  { h with
    flow := hes
    down := fun hd => absurd (hup.symm.trans hd) (by decide) }

theorem withdrawFlow (L : LaneId) : (q.withdrawFlow L).Within :=
  { h with
    flow := h.flow.sublist (List.filter_sublist.map _)
    down := fun hd => by
      obtain ⟨h1, h2, h3, h4, h5, h6, h7, h8, h9, h10, h11⟩ := h.down hd
      exact ⟨h1, h2, h3, h4, h5, h6, h7, by rw [PortRec.withdrawFlow, h8]; rfl, h9, h10, h11⟩ }

/-- The new entry of a lane stands alone for it. -/
theorem enterFlow (hup : q.link = .up) (L : LaneId) (hold : Bool) (fill : Nat) :
    ({ q with flow := q.flow.filter (·.lane != L) ++ [⟨L, hold, fill⟩] } : PortRec).Within := by
  refine h.setFlow hup ?_
  rw [List.map_append, List.nodup_append]
  refine ⟨h.flow.sublist (List.filter_sublist.map _), List.nodup_singleton _, ?_⟩
  simp only [List.map_cons, List.map_nil, List.mem_map, List.mem_filter, List.mem_singleton, bne_iff_ne]
  rintro _ ⟨e, ⟨-, hne⟩, rfl⟩ _ rfl
  exact hne

/-! ### Parked requests and responses (R158, R159) -/

/-- A parked request answered goes from the parked list to the answer list and still counts as parked. -/
theorem answerWhere (f : Parked → Bool) (st : Status) (payload : Parked → List Byte) :
    (q.answerWhere f st payload).Within := by
  rw [PortRec.answerWhere_eq]
  refine { h with parked := ?_, replies := ?_, down := fun hd => ?_ }
  · have hsplit := List.length_eq_length_filter_add f (l := q.parked)
    have hparked := h.parked
    simp only [PortRec.parkedCount, List.filter_append, List.length_append, List.filter_map, Function.comp_def,
      List.filter_true, List.length_map] at hparked ⊢
    omega
  · simpa [List.filter_map, Function.comp_def] using h.replies
  · obtain ⟨h1, h2, h3, h4, h5, h6, h7, h8, h9, h10, h11⟩ := h.down hd
    exact ⟨h1, h2, h3, h4, h5, by simp [h6], by simp [h6, h7], h8, h9, h10, h11⟩

/-- The RESPONSE of the request being taken: none is in progress before it. -/
theorem answer (hup : q.link = .up) (hidle : q.inProgress = none) (tag : Half) (lane : Byte) (st : Status)
    (payload : List Byte) :
    ({ q with inProgress := some tag, answers := q.answers ++ [⟨tag, lane, st, payload, false⟩] } : PortRec).Within :=
  { h with
    parked := by simpa [PortRec.parkedCount] using h.parked
    replies := by simp [h.replies_idle hidle]
    down := fun hd => absurd (hup.symm.trans hd) (by decide) }

theorem park (hup : q.link = .up) (hroom : q.parkedCount < Config.parkedMax) (k : Parked) :
    ({ q with parked := q.parked ++ [k] } : PortRec).Within :=
  { h with
    parked := by
      have : q.parkedCount < 4 := hroom
      simp only [PortRec.parkedCount, List.length_append, List.length_singleton] at this ⊢
      omega
    down := fun hd => absurd (hup.symm.trans hd) (by decide) }

theorem clearReservation : ({ q with reservation := none } : PortRec).Within :=
  { h with
    down := fun hd => by
      obtain ⟨h1, h2, h3, h4, h5, h6, h7, h8, h9, -, h11⟩ := h.down hd
      exact ⟨h1, h2, h3, h4, h5, h6, h7, h8, h9, rfl, h11⟩ }

/-- On a link that is UP the settings, the masks, the cursor and the reservation are free (R165). -/
theorem ofUp (hup : q.link = .up) (w : Width) (o : ByteOrder) (d : Bool) (m : Vector Bool 6) (c : Cursor)
    (v : Option Reservation) : ({ q with
      width := w, order := o, delivery := d, masks := m, cursor := c, reservation := v } : PortRec).Within :=
  { h with down := fun hd => absurd (hup.symm.trans hd) (by decide) }

/-! ### The queue (R157, R158) -/

theorem setQueue (hup : q.link = .up) {es : List Entry} (hes : es.length ≤ 8) :
    ({ q with queue := es } : PortRec).Within :=
  { h with
    queue := hes
    down := fun hd => absurd (hup.symm.trans hd) (by decide) }

/-- An entry that arrives may be counted MALFORMED, and is in the queue. -/
theorem enqueue_queue (hup : q.link = .up) (e : Entry) {es : List Entry} (hes : es.length ≤ 8) :
    ({ q.enqueue e with queue := es } : PortRec).Within := by
  cases e with
  | malformed tag lane => exact h.countMalformed.setQueue hup hes
  | whole tag lane r => exact h.setQueue hup hes
  | unknown tag lane => exact h.setQueue hup hes

theorem enqueue (hup : q.link = .up) (hroom : q.queue.length < Config.queueLen) (e : Entry) : (q.enqueue e).Within :=
  h.enqueue_queue hup e (es := q.queue ++ [e]) (by rw [List.length_append]; exact hroom)

/-! ### The arbiter (R161) and the link (R168) -/

theorem takeFlow (hup : q.link = .up) (e : FlowEntry) : (q.takeFlow e).Within :=
  { h.setFlow hup (h.flow.sublist (q.flow.tail_sublist.map _)) with }

theorem takeNotice (i : Fin 42) (e : NoticeEntry) : (q.takeNotice i e).Within :=
  { h.setEntry i (x := none) fun _ he => nomatch he with }

/-- The oldest response leaves its list: that of a parked request frees its place, the other ends the request. -/
theorem takeResponse (hup : q.link = .up) {r : Response} {rs : List Response} (hq : q.answers = r :: rs) :
    (q.takeResponse r).Within := by
  have hparked := h.parked
  have hreplies := h.replies
  simp only [PortRec.parkedCount, hq, List.filter_cons] at hparked hreplies
  refine { h with parked := ?_, replies := ?_, down := fun hd => absurd (hup.symm.trans hd) (by decide) }
  · simp only [PortRec.takeResponse, PortRec.send, PortRec.parkedCount, hq, List.tail_cons]
    split at hparked
    · rw [List.length_cons] at hparked
      omega
    · exact hparked
  · simp only [PortRec.takeResponse, PortRec.send, hq, List.tail_cons]
    cases hr : r.ofParked
    · simp only [hr, Bool.not_false, if_true, List.length_cons] at hreplies
      split at hreplies
      · omega
      · simp only [Bool.false_eq_true, if_false, if_true]
        omega
    · simpa [hr] using hreplies

theorem sendFrom (L : LaneId) (f : OutFrame) : ({ q with pointer := L }.send f).Within := { h with }

theorem linkDown : q.down.Within where
  queue := Nat.zero_le _
  parked := Nat.zero_le _
  replies := rfl
  flow := List.nodup_nil
  crcError := h.crcError
  malformed := h.malformed
  stray := h.stray
  dropped := h.dropped
  entries i e he := by simp [PortRec.down, PortRec.reset] at he
  down _ := ⟨rfl, rfl, rfl, rfl, rfl, rfl, rfl, rfl, rfl, rfl, fun c => by simp [PortRec.down, PortRec.reset]⟩

theorem linkUp : ({ q with link := .up, firstUp := false } : PortRec).Within :=
  { h with down := fun hd => nomatch hd }

omit h in
theorem reset : PortRec.reset.Within := (PortRec.bounded_iff_within _).1 PortRec.reset_bounded

omit h in
theorem resetCount_range (q : PortRec) : 1 ≤ q.resetCount ∧ q.resetCount ≤ 255 := by
  unfold PortRec.resetCount
  split
  · split <;> omega
  · omega

omit h in
theorem unitReset (q : PortRec) (order : Nat) : (q.unitReset order).Within := by
  have hclear : ({ PortRec.reset with link := q.link, firstUp := false, sent := q.sent } : PortRec).Within :=
    { reset with down := fun _ => reset.down rfl }
  obtain ⟨hlow, hhigh⟩ := resetCount_range q
  unfold PortRec.unitReset
  dsimp only
  split
  · exact hclear.setEntry _ fun e he => by
      cases he
      exact ⟨hlow, hhigh, rfl⟩
  · exact hclear

end PortRec.Within

end Sys2Proof.Machine

/-! PROOF. What serves a lane, a line or the engine without moving a link and without beginning or ending a request
(`State.Serves`): one lemma per operation that reaches a port, by way of the notices it raises, the reservations it loses,
the flow entries it makes and the parked requests it answers. -/

namespace Sys2Proof.Machine
open Sys2Proof

/-! ### The relation -/

/-- The port stays within its limits, under the same link and with the same request in progress. -/
structure PortRec.Serves (q r : PortRec) : Prop where
  within : q.Within → r.Within
  link : r.link = q.link
  inProgress : r.inProgress = q.inProgress

theorem PortRec.Serves.refl (q : PortRec) : q.Serves q := ⟨id, rfl, rfl⟩

theorem PortRec.loseIf_serves (q : PortRec) (b : Reservation → Bool) : q.Serves (q.loseIf b) :=
  ⟨fun h => h.loseIf b, rfl, rfl⟩

theorem PortRec.answerWhere_serves (q : PortRec) (f : Parked → Bool) (st : Status) (payload : Parked → List Byte) :
    q.Serves (q.answerWhere f st payload) :=
  ⟨fun h => h.answerWhere f st payload, by rw [PortRec.answerWhere_eq], by rw [PortRec.answerWhere_eq]⟩

/-- Every port of `t` serves that of `s`. -/
structure State.Serves (s t : State) : Prop where
  port : ∀ p, (s.port p).Serves (t.port p)

namespace State.Serves
variable {r s : State}

theorem refl (s : State) : s.Serves s := ⟨fun _ => .refl _⟩

theorem trans {t : State} (h : r.Serves s) (h' : s.Serves t) : r.Serves t where
  port p :=
    ⟨(h'.port p).within ∘ (h.port p).within, (h'.port p).link.trans (h.port p).link,
      (h'.port p).inProgress.trans (h.port p).inProgress⟩

/-- No port is reached. -/
theorem frame (h : r.Serves s) {t : State} (hA : t.portA = s.portA) (hB : t.portB = s.portB) : r.Serves t where
  port p := by
    rw [State.port_congr hA hB]
    exact h.port p

theorem event (h : r.Serves s) : r.Serves s.event := h.frame rfl rfl

theorem setLane (h : r.Serves s) (L : LaneId) (l : Lane) : r.Serves (s.setLane L l) := h.frame rfl rfl

theorem modLane (h : r.Serves s) (L : LaneId) (f : Lane → Lane) : r.Serves (s.modLane L f) := h.frame rfl rfl

theorem count (h : r.Serves s) (L : LaneId) (c : Ctr) : r.Serves (s.count L c) := h.frame rfl rfl

theorem setList (h : r.Serves s) (L : LaneId) (rs : List Record) : r.Serves (s.setList L rs) := h.frame rfl rfl

theorem setPiece (h : r.Serves s) (L : LaneId) (x : Option Piece) : r.Serves (s.setPiece L x) := h.frame rfl rfl

theorem setSpan (h : r.Serves s) (L : LaneId) (x : Option Span) : r.Serves (s.setSpan L x) := h.frame rfl rfl

theorem setStore (h : r.Serves s) (m : SampleStore) : r.Serves (s.setStore m) := h.frame rfl rfl

theorem setEngine (h : r.Serves s) (e : Engine) : r.Serves (s.setEngine e) := h.frame rfl rfl

theorem setLine (h : r.Serves s) (k : LineId) (l : Line) : r.Serves (s.setLine k l) := h.frame rfl rfl

theorem setPort (h : r.Serves s) (p : Port) {q : PortRec} (hq : (s.port p).Serves q) : r.Serves (s.setPort p q) := by
  refine h.trans ⟨fun k => ?_⟩
  cases p <;> cases k
  · exact hq
  · exact .refl _
  · exact .refl _
  · exact hq

theorem modPort (h : r.Serves s) (p : Port) {f : PortRec → PortRec} (hf : (s.port p).Serves (f (s.port p))) :
    r.Serves (s.modPort p f) :=
  h.setPort p hf

/-- Both ports updated alike. -/
theorem modPorts (h : r.Serves s) {f : PortRec → PortRec} (hf : ∀ q : PortRec, q.Serves (f q)) :
    r.Serves ((s.modPort .A f).modPort .B f) :=
  (h.modPort .A (hf _)).modPort .B (hf _)

theorem foldl {α : Type} {f : State → α → State} (hf : ∀ (t : State) (a : α), r.Serves t → r.Serves (f t a)) :
    ∀ (as : List α) {t : State}, r.Serves t → r.Serves (as.foldl f t)
  | [], _, h => h
  | a :: as, _, h => foldl hf as (hf _ a h)

theorem when (h : r.Serves s) (due : Bool) {f : State → State} (hf : r.Serves (f s)) : r.Serves (s.when due f) := by
  cases due
  · exact h
  · exact hf

/-! ### Notices, reservations and parked requests -/

theorem raiseTo (h : r.Serves s) (p : Port) (c : NoticeCode) (who : Option LaneId) (pos d : Nat) :
    r.Serves (s.raiseTo p c who pos d) :=
  h.modPort p ⟨fun hq => hq.enter c who pos d s.events, rfl, rfl⟩

theorem raise (h : r.Serves s) (c : NoticeCode) (who : Option LaneId) (pos d : Nat) : r.Serves (s.raise c who pos d) :=
  (h.raiseTo .A c who pos d).raiseTo .B c who pos d

theorem recordTouched (h : r.Serves s) (L : LaneId) (lo hi : Nat) : r.Serves (s.recordTouched L lo hi) :=
  h.modPorts fun q => q.loseIf_serves _

theorem recordEdited (h : r.Serves s) (p : Port) (L : LaneId) (lo hi : Nat) : r.Serves (s.recordEdited p L lo hi) :=
  h.modPort _ (PortRec.loseIf_serves _ _)

theorem dropReservations (h : r.Serves s) (L : LaneId) : r.Serves (s.dropReservations L) :=
  h.modPorts fun q => q.loseIf_serves _

theorem answerSyncs (h : r.Serves s) (L : LaneId) : r.Serves (s.answerSyncs L) :=
  h.modPorts fun q => q.answerWhere_serves _ _ _

theorem enterFlow (h : r.Serves s) (L : LaneId) (hold : Bool) : r.Serves (s.enterFlow L hold) := by
  unfold State.enterFlow
  refine h.modPort _ ?_
  split
  · rename_i hup
    exact ⟨fun hq => hq.enterFlow hup L hold _, rfl, rfl⟩
  · exact .refl _

theorem assessLane (h : r.Serves s) (M : LaneId) : r.Serves (s.assessLane M) := by
  unfold State.assessLane
  dsimp only
  split
  · split
    · exact (h.setLane _ _).raise _ _ _ _
    · exact h.setLane _ _
  · exact h

theorem assess (h : r.Serves s) : r.Serves s.assess := foldl (fun _ M ht => ht.assessLane M) laneIds h

theorem countUnlisted (h : r.Serves s) (L : LaneId) (start : Nat) : r.Serves (s.countUnlisted L start) := by
  unfold State.countUnlisted
  dsimp only
  split
  · exact (h.modLane _ _).raise _ _ _ _
  · exact h.modLane _ _

theorem merged (h : r.Serves s) (L : LaneId) (lo hi : Nat) : r.Serves (s.merged L lo hi) :=
  (h.modLane _ _).recordTouched _ _ _

theorem mergedTimes (h : r.Serves s) (L : LaneId) (lo hi k : Nat) : r.Serves (mergedTimes L lo hi k s) := by
  induction k generalizing s with
  | zero => exact h
  | succ k ih => exact ih (h.merged L lo hi)

theorem grant (h : r.Serves s) : r.Serves s.grant := h.frame s.grant_portA s.grant_portB

/-! ### GAP pieces -/

section
variable {L : LaneId}

theorem closePiece (h : r.Serves s) (x : Int) : r.Serves (s.closePiece L x) := by
  unfold State.closePiece
  dsimp only
  split
  · exact h
  · split
    · exact h.frame rfl rfl
    · exact ((h.setList _ _).setPiece _ _).recordTouched _ _ _
  · exact h.frame rfl rfl

theorem absorbAhead (h : r.Serves s) (st : Nat) (n : Record) : r.Serves (s.absorbAhead L st n) :=
  (h.setList _ _).assess.merged _ _ _

theorem takePiece (h : r.Serves s) (m : Nat) : r.Serves (s.takePiece L m) := by
  unfold State.takePiece
  dsimp only
  split
  · exact (h.modLane _ _).assess.recordTouched _ _ _
  · split
    · exact h.frame rfl rfl
    · exact ((h.count _ _).setPiece _ _).countUnlisted _ _

theorem openPiece (h : r.Serves s) (m : Nat) : r.Serves (s.openPiece L m) := by
  unfold State.openPiece
  split
  · exact h.takePiece m
  · split
    · exact h.takePiece m
    · split
      · exact (h.takePiece m).absorbAhead _ _
      · exact h.frame rfl rfl

theorem reopenPiece (h : r.Serves s) (p : Record) (m : Nat) : r.Serves (s.reopenPiece L p m) := by
  unfold State.reopenPiece
  extract_lets l reach higher joined opened
  have hopened : r.Serves opened := ((h.setList _ _).setPiece _ _).merged _ _ _
  split
  · exact hopened
  · split
    · exact hopened
    · split
      · exact hopened.absorbAhead _ _
      · exact h.frame rfl rfl

theorem attemptPiece (h : r.Serves s) (m : Nat) (exempt : Option Nat) : r.Serves (s.attemptPiece L m exempt) := by
  unfold State.attemptPiece
  extract_lets l stopped t
  have ht : r.Serves t := h.modLane _ _
  split
  · exact h.frame rfl rfl
  · split
    · exact ht.openPiece m
    · split
      · exact ht.openPiece m
      · split
        · exact ht.reopenPiece _ m
        · exact h.frame rfl rfl

theorem nextPiece (h : r.Serves s) (m : Nat) (own : Option Nat) : r.Serves (s.nextPiece L m own) :=
  (h.closePiece 0).attemptPiece m own

theorem extendPiece (h : r.Serves s) (m : Nat) : r.Serves (s.extendPiece L m) := by
  have hstopped : ∀ n own, r.Serves ((s.modLane L fun l => { l with gapStop := some n }).nextPiece L m own) :=
    fun n own => (h.modLane _ _).nextPiece m own
  unfold State.extendPiece
  extract_lets l
  split
  · exact h.attemptPiece _ _
  · split
    · exact h.attemptPiece _ _
    · split
      · extract_lets grown
        have hgrown : r.Serves grown := ((h.setList _ _).setPiece _ _).recordTouched _ _ _
        split
        · exact hgrown
        · split
          · exact hgrown
          · split
            · exact hgrown.absorbAhead _ _
            · exact hstopped _ _
      · exact h.nextPiece _ _
  · split
    · split
      · exact h.frame rfl rfl
      · split
        · exact h.frame rfl rfl
        · exact hstopped _ _
    · exact h.nextPiece _ _

theorem coverMissing (h : r.Serves s) (m : Nat) : r.Serves (s.coverMissing L m) := by
  unfold State.coverMissing
  split
  · exact h.attemptPiece _ _
  · split
    · exact h
    · exact h.extendPiece m

theorem coverValid (h : r.Serves s) (m : Nat) (x : Int) : r.Serves (s.coverValid L m x) := by
  unfold State.coverValid
  extract_lets t
  have ht : r.Serves t := h.modLane _ _
  split
  · exact ht
  · split
    · exact ht.frame rfl rfl
    · exact ht.closePiece x

/-! ### The analyser -/

theorem endSpan (h : r.Serves s) (sp : Span) (x : Int) : r.Serves (s.endSpan L sp x) := by
  unfold State.endSpan
  dsimp only
  split
  · exact ((h.setList _ _).setSpan _ _).recordTouched _ _ _
  · exact h.frame rfl rfl

/-- Each record that has changed loses the reservations on its blocks. -/
theorem recordsTouched (h : r.Serves s) (rs : List Record) :
    r.Serves (rs.foldl (fun t x => t.recordTouched L x.start x.last) s) :=
  foldl (fun _ x ht => ht.recordTouched L x.start x.last) rs h

theorem dueAnchors (h : r.Serves s) (n : Nat) : r.Serves (s.dueAnchors L n) := by
  have hanchors : ∀ {t : State}, r.Serves t → r.Serves (t.takeAnchors L n) := fun ht =>
    (ht.setList _ _).recordsTouched _
  unfold State.dueAnchors
  refine hanchors ?_
  split
  · split
    · exact h.endSpan _ _
    · exact h
  · exact h

theorem closeSpan (h : r.Serves s) (sp : Span) : r.Serves (s.closeSpan L sp) := by
  unfold State.closeSpan
  extract_lets t rs u
  have ht : r.Serves t := h.setSpan _ _
  split
  · exact ht
  · have hu : r.Serves u := (ht.setList _ _).recordTouched _ _ _
    split
    · split
      · exact hu.count _ _
      · exact hu.count _ _
      · exact hu
    · exact hu

theorem beginListed (h : r.Serves s) (sp : Span) (base : Record) (ns : List Record) :
    r.Serves (s.beginListed L sp base ns) := by
  unfold State.beginListed
  extract_lets before taken t u
  have htaken : r.Serves taken := by
    unfold taken
    split
    · exact (h.modLane _ _).assess
    · exact h
  have ht : r.Serves t := (htaken.setList _ _).assess
  have hu : r.Serves u := ht.mergedTimes L _ _ _
  exact (hu.setSpan _ _).recordTouched _ _ _

theorem openSpan (h : r.Serves s) (n m e : Nat) : r.Serves (s.openSpan L n m e) := by
  unfold State.openSpan
  extract_lets
  split
  extract_lets
  split
  · exact h.frame rfl rfl
  · split
    · exact h.beginListed _ _ _
    · exact (h.setSpan _ _).countUnlisted _ _

theorem growSpan (h : r.Serves s) (sp : Span) (n m e : Nat) : r.Serves (s.growSpan L sp n m e) := by
  unfold State.growSpan
  extract_lets
  split
  extract_lets _ t
  have ht : r.Serves t := h.setSpan _ _
  split
  · extract_lets base rs u v
    have hu : r.Serves u := (ht.setList _ _).assess
    have hv : r.Serves v := hu.mergedTimes L _ _ _
    split
    · exact hv
    · exact hv.recordTouched _ _ _
  · exact ht

theorem testPosition (h : r.Serves s) (n : Nat) (x : Int) : r.Serves (s.testPosition L n x) := by
  unfold State.testPosition
  extract_lets l p m t
  split
  · have ht : r.Serves t := by
      unfold t
      split
      · exact h.openSpan _ _ _
      · split
        · exact h.growSpan _ _ _ _
        · exact h
    exact ht.modLane _ _
  · exact h.frame rfl rfl

theorem classify (h : r.Serves s) (n : Nat) : r.Serves (s.classify L n) := by
  unfold State.classify
  dsimp only
  split
  · exact h.frame rfl rfl
  · split
    · exact h.frame rfl rfl
    · exact h.testPosition _ _

theorem closeAt (h : r.Serves s) (n : Nat) : r.Serves (s.closeAt L n) := by
  unfold State.closeAt
  split
  · split
    · exact h.closeSpan _
    · exact h
  · exact h

theorem analyseNext (h : r.Serves s) : r.Serves (s.analyseNext L) := by
  unfold State.analyseNext
  extract_lets n l latched t
  have hlatched : r.Serves latched := by
    unfold latched
    split
    · exact h.frame rfl rfl
    · exact h
  have ht : r.Serves t := ((hlatched.dueAnchors n).classify n).closeAt n
  exact ht.modLane _ _

theorem finishAnalysis (h : r.Serves s) : r.Serves (s.finishAnalysis L) := by
  unfold State.finishAnalysis
  extract_lets l closed ended t changed u
  have hclosed : r.Serves closed := by
    unfold closed
    split
    · split
      · extract_lets
        split
        · exact (h.setList _ _).closeSpan _
        · exact h.closeSpan _
      · exact h
    · exact h
  have hended : r.Serves ended := by
    unfold ended
    split
    · exact hclosed.endSpan _ _
    · exact hclosed
  have ht : r.Serves t := hended.closePiece 0
  have hu : r.Serves u := (ht.setList _ _).recordsTouched _
  exact hu.modLane _ _

/-! ### Placement -/

theorem turnRing (h : r.Serves s) : r.Serves (s.turnRing L) := by
  unfold State.turnRing
  dsimp only
  split
  · exact h
  · split
    · exact h.frame rfl rfl
    · split
      · exact h
      · exact (h.setLane _ _).enterFlow _ _

theorem placeOne (h : r.Serves s) (v : Option Int) : r.Serves (s.placeOne L v) := by
  unfold State.placeOne
  extract_lets m k stored covered t
  have hcovered : r.Serves covered := by
    unfold covered
    split
    · exact ((h.setStore _).count _ _).coverValid m _
    · exact ((h.setStore _).count _ _).coverMissing m
  have ht : r.Serves t := hcovered.modLane _ _
  split
  · exact ht.turnRing
  · exact ht

theorem placeRun (fuel : Nat) (h : r.Serves s) (e : Landed) : r.Serves (placeRun L fuel s e).1 := by
  induction fuel generalizing s e with
  | zero => exact h
  | succ fuel ih =>
    unfold Machine.placeRun
    split
    · exact h
    · dsimp only
      split
      · exact ih h _
      · split
        · exact h
        · split
          · exact ih (h.placeOne _) _
          · exact ih (h.placeOne _) _

theorem placeFrame (h : r.Serves s) (e : Landed) : r.Serves (s.placeFrame L e).1 := by
  unfold State.placeFrame
  refine placeRun _ ?_ _
  split
  · exact h.frame rfl rfl
  · exact h

theorem placeEntries (es : List Landed) (h : r.Serves s) : r.Serves (placeEntries L es s) := by
  induction es generalizing s with
  | nil => exact h.frame rfl rfl
  | cons e es ih =>
    unfold Machine.placeEntries
    split
    · have hf := h.placeFrame (L := L) e
      split
      · rename_i heq
        rw [heq] at hf
        exact ih hf
      · rename_i heq
        rw [heq] at hf
        exact hf.frame rfl rfl
    · exact h.frame rfl rfl

theorem acceptFrame (h : r.Serves s) (e : Landed) : r.Serves (s.acceptFrame L e) := by
  unfold State.acceptFrame
  dsimp only
  split
  · have hf := h.placeFrame (L := L) e
    split
    · rename_i heq
      rw [heq] at hf
      exact hf
    · rename_i heq
      rw [heq] at hf
      split
      · exact hf.frame rfl rfl
      · exact hf.frame rfl rfl
  · exact h.frame rfl rfl

theorem cutFrame (h : r.Serves s) (e : Landed) : r.Serves (s.cutFrame L e).1 := by
  unfold State.cutFrame
  split
  · exact (h.count _ _).raise _ _ _ _
  · exact h

theorem openSlot (h : r.Serves s) : r.Serves (s.openSlot L) := by
  unfold State.openSlot
  split
  · exact h.frame rfl rfl
  · exact h

theorem placeLanding (h : r.Serves s) : r.Serves (s.placeLanding L) := placeEntries _ h.openSlot

/-! ### What a lane does by itself -/

theorem completeRender (h : r.Serves s) (x : Render) : r.Serves (s.completeRender x) := by
  unfold State.completeRender
  dsimp only
  split
  · exact h.frame rfl rfl
  · exact (((h.setEngine _).setStore _).modLane _ _).answerSyncs _

theorem withdrawFlow (h : r.Serves s) :
    r.Serves ((s.modPort .A (·.withdrawFlow L)).modPort .B (·.withdrawFlow L)) :=
  h.modPorts fun _ => ⟨fun hq => hq.withdrawFlow L, rfl, rfl⟩

theorem closeLane (h : r.Serves s) : r.Serves (s.closeLane L) := 
  ((h.withdrawFlow.dropReservations L).modLane L _).assess

theorem completeDrain (h : r.Serves s) : r.Serves (s.completeDrain L) :=
  (h.modPorts fun q => q.answerWhere_serves _ _ _).closeLane.raise _ _ _ _

theorem abandonLane (h : r.Serves s) : r.Serves (s.abandonLane L) := by
  unfold State.abandonLane
  extract_lets release t
  have ht : r.Serves t := h.modPorts fun q => q.answerWhere_serves _ _ _
  exact (ht.setEngine _).closeLane.raise _ _ _ _

theorem sendGo (h : r.Serves s) : r.Serves (s.sendGo L) := (h.modLane L _).enterFlow L false

theorem settleLane (h : r.Serves s) : r.Serves (s.settleLane L) := by
  unfold State.settleLane
  extract_lets s1 s2 s3 s4 s5 s6 s7
  have h1 : r.Serves s1 := h.openSlot
  have h2 : r.Serves s2 := h1.when _ h1.placeLanding
  have h3 : r.Serves s3 := h2.when _ (h2.modLane L _)
  have h4 : r.Serves s4 := h3.when _ h3.finishAnalysis
  have h5 : r.Serves s5 := h4.when _ h4.sendGo
  have h6 : r.Serves s6 := h5.when _ (h5.modLane L _)
  have h7 : r.Serves s7 := h6.when _ h6.completeDrain
  exact h7.grant

theorem samplesFor (h : r.Serves s) (p : Port) (e : Landed) : r.Serves (s.samplesFor p L e) := by
  unfold State.samplesFor
  extract_lets l t
  split
  · exact h.modPort p ⟨fun hq => hq.countStray, rfl, rfl⟩
  · split
    · exact h.frame rfl rfl
    · split
      · exact (h.count _ _).raise _ _ _ _
      · have ht : r.Serves t := by
          unfold t
          split
          · exact h.frame rfl rfl
          · exact h
        exact (ht.cutFrame e).acceptFrame _

end

/-! ### Lines -/

theorem countLine (h : r.Serves s) (k : LineId) (c : Ctr) : r.Serves (s.countLine k c) :=
  foldl (fun _ _ ht => ht.count _ _) _ h

theorem raiseLine (h : r.Serves s) (k : LineId) (c : NoticeCode) : r.Serves (s.raiseLine k c) := by
  unfold State.raiseLine
  dsimp only
  split
  · exact h.raise _ _ _ _
  · exact foldl (fun _ _ ht => ht.raise _ _ _ _) _ h

theorem captureEdge (h : r.Serves s) (k : LineId) (t : Tick) : r.Serves (s.captureEdge k t) := by
  unfold State.captureEdge
  dsimp only
  split
  · exact (h.setLine _ _).raiseLine _ _
  · exact h.frame rfl rfl

theorem takeSample (h : r.Serves s) (k : LineId) : r.Serves (s.takeSample k) := by
  unfold State.takeSample
  dsimp only
  split
  · exact (h.setLine _ _).captureEdge _ _
  · exact h.frame rfl rfl

theorem coastExpires (h : r.Serves s) (k : LineId) : r.Serves (s.coastExpires k) :=
  ((h.setLine _ _).countLine _ _).raiseLine _ _

theorem lostExpires (h : r.Serves s) (k : LineId) : r.Serves (s.lostExpires k) :=
  ((h.setLine _ _).countLine _ _).raiseLine _ _

theorem expire (h : r.Serves s) (k : LineId) : r.Serves (s.expire k) := by
  unfold State.expire
  split
  · exact h
  · exact h.coastExpires k
  · exact h.lostExpires k
  · exact h.frame rfl rfl

theorem passTicks (h : r.Serves s) (d : Nat) : r.Serves (s.passTicks d) := by
  unfold State.passTicks
  split
  · exact h
  · exact h.frame rfl rfl

theorem runTicks (h : r.Serves s) (fuel d : Nat) : r.Serves (runTicks fuel d s) :=
  runTicks_keeps (P := r.Serves) (fun _ d h => h.passTicks d)
    (fun _ k e _ h => (h.passTicks e).event.takeSample k)
    (fun _ k e _ h => (h.passTicks e).event.expire k) fuel d h

theorem runTo (h : r.Serves s) (t : Tick) : r.Serves (s.runTo t) := (h.runTicks _ _).event

end State.Serves

end Sys2Proof.Machine

/-! PROOF. Every step keeps the ports within their limits: the requests, which a port takes only while its link is UP and
no request is in progress, the arbiter, the links and the resets. The statement O56. -/

namespace Sys2Proof.Machine
open Sys2Proof

/-- What a lane presents is no response (R162). -/
theorem State.presented_ne_response (s : State) (p : Port) (L : LaneId) (r : Response) :
    s.presented p L ≠ some (.response r) := by
  unfold State.presented
  dsimp only
  repeat' split
  all_goals simp

/-- The response the arbiter chooses is the oldest of its port's answer list (R161). -/
theorem State.chosen_response {s : State} {p : Port} {r : Response} (h : s.chosen p = some (.response r)) :
    ∃ rs, (s.port p).answers = r :: rs := by
  refine List.head?_eq_some_iff.1 ?_
  unfold State.chosen at h
  dsimp only at h
  split at h
  · split at h
    · cases h
    · rename_i hanswers
      cases h
      exact hanswers
    · cases h
    · obtain ⟨L, -, hL⟩ := List.exists_of_findSome?_eq_some h
      exact absurd hL (State.presented_ne_response s p L r)
  · cases h

/-- Both ports are within their limits. -/
def State.portsWithin (s : State) : Prop := ∀ p, (s.port p).Within

theorem State.Serves.portsWithin {s t : State} (h : s.Serves t) (hs : s.portsWithin) : t.portsWithin := fun p =>
  (h.port p).within (hs p)

theorem State.portsWithin.setPort {s : State} (h : s.portsWithin) (p : Port) {q : PortRec} (hq : q.Within) :
    (s.setPort p q).portsWithin := fun k => by
  cases p <;> cases k
  · exact hq
  · exact h .B
  · exact h .A
  · exact hq

theorem State.portsWithin.modPort {s : State} (h : s.portsWithin) (p : Port) {f : PortRec → PortRec}
    (hf : (f (s.port p)).Within) : (s.modPort p f).portsWithin :=
  h.setPort p hf

/-! ### The port whose entry has been taken -/

/-- Both ports are within their limits, and port `p` can take a request: its link is UP and none is in progress (R158). -/
structure State.Ready (s : State) (p : Port) : Prop where
  within : s.portsWithin
  up : (s.port p).link = .up
  idle : (s.port p).inProgress = none

namespace State.Ready
variable {s : State} {p : Port} (h : s.Ready p)
include h

theorem serves {t : State} (ht : s.Serves t) : t.Ready p where
  within := ht.portsWithin h.within
  up := (ht.port p).link.trans h.up
  idle := (ht.port p).inProgress.trans h.idle

theorem answer (tag : Half) (lane : Byte) (st : Status) (b : List Byte) : (s.answer p tag lane st b).portsWithin :=
  h.within.modPort p ((h.within p).answer h.up h.idle tag lane st b)

theorem refuse (tag : Half) (lane : Byte) (st : Status) (code : Byte) (n : Nat) :
    (s.refuse p tag lane st code n).portsWithin :=
  h.answer tag lane st _

/-- What a request may set on its own port before it is answered. -/
theorem modPort {f : PortRec → PortRec} (hf : (f (s.port p)).Within) (hup : (f (s.port p)).link = .up)
    (hidle : (f (s.port p)).inProgress = none) : (s.modPort p f).Ready p where
  within := h.within.modPort p hf
  up := by rwa [State.port_modPort_same]
  idle := by rwa [State.port_modPort_same]

/-- Settings, masks, cursor and reservation are free on a link that is UP. -/
theorem ofUp (w : Width) (o : ByteOrder) (d : Bool) (m : Vector Bool 6) (c : Cursor) (v : Option Reservation) :
    ({ s.port p with width := w, order := o, delivery := d, masks := m, cursor := c, reservation := v } :
      PortRec).Within :=
  (h.within p).ofUp h.up w o d m c v

theorem setCursor (c : Cursor) : (s.modPort p fun q => { q with cursor := c }).Ready p :=
  h.modPort (h.ofUp _ _ _ _ c _) h.up h.idle

theorem setReservation (v : Option Reservation) : (s.modPort p fun q => { q with reservation := v }).Ready p :=
  h.modPort (h.ofUp _ _ _ _ _ v) h.up h.idle

/-! ### Lanes -/

theorem laneOpen (tag : Half) (lane : Byte) (a : LaneOpenArgs) : (s.laneOpen p tag lane a).portsWithin := by
  unfold State.laneOpen
  split
  · exact h.refuse _ _ _ _ _
  · rename_i L o _
    have hopened : s.Serves (s.withOpened L a o) := (State.Serves.refl s).frame rfl rfl
    rw [State.openLane_eq]
    exact (h.serves (hopened.assess.raise _ _ _ _)).answer _ _ _ _

theorem laneClose (tag : Half) (lane : Byte) : (s.laneClose p tag lane).portsWithin := by
  unfold State.laneClose
  split
  · exact h.refuse _ _ _ _ _
  · split
    · exact (h.serves (State.Serves.refl s).abandonLane).answer _ _ _ _
    · exact h.refuse _ _ _ _ _

/-- A request is parked where the port has room for it (R159). -/
theorem park (hroom : (s.port p).parkedCount < Config.parkedMax) (k : Parked) : (s.park p k).portsWithin :=
  h.within.modPort p ((h.within p).park h.up hroom k)

theorem laneDrain (tag : Half) (lane : Byte) : (s.laneDrain p tag lane).portsWithin := by
  unfold State.laneDrain
  split
  · exact h.refuse _ _ _ _ _
  · rename_i L _
    split
    · split
      · rename_i hroom
        have ht := h.serves ((State.Serves.refl s).modLane L fun l => { l with state := .draining })
        exact (State.Serves.refl _).settleLane.portsWithin (ht.park (by rwa [State.port_modLane]) _)
      · exact h.refuse _ _ _ _ _
    · exact h.refuse _ _ _ _ _

theorem laneStatus (tag : Half) (lane : Byte) : (s.laneStatus p tag lane).portsWithin := by
  unfold State.laneStatus
  split
  · exact h.refuse _ _ _ _ _
  · exact h.answer _ _ _ _

/-! ### Edits -/

/-- An EDIT answers after its own effect, and clears the reservation of its port. -/
theorem edit (tag : Half) (lane : Byte) (a : EditArgs) {own : State → LaneId → EditResult}
    (hown : ∀ L t x y z, own s L = .done t x y z → s.Serves t) : (s.edit p tag lane a own).portsWithin := by
  have hclear : ∀ {t : State}, t.portsWithin → (t.clearReservation p).portsWithin := fun ht =>
    ht.modPort p (ht p).clearReservation
  unfold State.edit
  split
  · exact hclear (h.answer _ _ _ _)
  · split
    · exact hclear (h.answer _ _ _ _)
    · rename_i hdone
      exact (State.Serves.refl _).grant.portsWithin (hclear ((h.serves (hown _ _ _ _ _ hdone)).answer _ _ _ _))

theorem reserve (tag : Half) (lane : Byte) (pos : Word) : (s.reserve p tag lane pos).portsWithin := by
  unfold State.reserve
  split
  · exact h.refuse _ _ _ _ _
  · split
    · exact h.refuse _ _ _ _ _
    · exact (h.setReservation _).answer _ _ _ _

theorem cursorSet (tag : Half) (lane : Byte) (pos : Word) : (s.cursorSet p tag lane pos).portsWithin := by
  unfold State.cursorSet
  split
  · exact h.refuse _ _ _ _ _
  · exact (h.setCursor _).answer _ _ _ _

theorem listRead (tag : Half) (lane n : Byte) : (s.listRead p tag lane n).portsWithin := by
  unfold State.listRead
  dsimp only
  split
  · exact h.refuse _ _ _ _ _
  · split
    · exact (h.setCursor _).answer _ _ _ _
    · exact h.refuse _ _ _ _ _

theorem sync (tag : Half) (lane : Byte) : (s.sync p tag lane).portsWithin := by
  unfold State.sync
  dsimp only
  split
  · exact h.refuse _ _ _ _ _
  · split
    · split
      · split
        · rename_i hroom
          exact h.park hroom _
        · exact h.refuse _ _ _ _ _
      · exact h.answer _ _ _ _
    · exact h.refuse _ _ _ _ _

/-! ### Lines, profiles and ports -/

theorem transportSetup (tag : Half) (lane : Byte) (a : TransportArgs) :
    (s.transportSetup p tag lane a).portsWithin := by
  unfold State.transportSetup
  split
  · exact h.refuse _ _ _ _ _
  · split
    · split
      · exact (h.serves ((State.Serves.refl s).setLine _ _)).answer _ _ _ _
      · exact h.refuse _ _ _ _ _
    · exact h.answer _ _ _ _

theorem profileWrite (tag : Half) (lane slot : Byte) (x : ProfileRaw) :
    (s.profileWrite p tag lane slot x).portsWithin := by
  unfold State.profileWrite
  split
  · exact h.refuse _ _ _ _ _
  · rename_i n held _
    have hwritten : s.Serves { s with library := s.library.set n.val held } := (State.Serves.refl s).frame rfl rfl
    exact (h.serves hwritten).answer _ _ _ _

theorem profileRead (tag : Half) (lane form which : Byte) : (s.profileRead p tag lane form which).portsWithin := by
  unfold State.profileRead
  split
  · split
    · exact h.refuse _ _ _ _ _
    · exact h.answer _ _ _ _
  · split
    · split
      · exact h.refuse _ _ _ _ _
      · exact h.answer _ _ _ _
    · exact h.refuse _ _ _ _ _

theorem refresh (tag : Half) (lane slot : Byte) : (s.refresh p tag lane slot).portsWithin := by
  unfold State.refresh
  split
  · exact h.refuse _ _ _ _ _
  · rename_i L n _
    have ht : s.Serves (s.newCopy L n) := (State.Serves.refl s).modLane _ _
    exact (h.serves (ht.when (f := (·.discardRetiring L)) _ (ht.modLane _ _))).answer _ _ _ _

theorem condition (tag : Half) (lane form which : Byte) : (s.condition p tag lane form which).portsWithin := by
  unfold State.condition
  split
  · split
    · exact h.answer _ _ _ _
    · exact h.refuse _ _ _ _ _
  · split
    · split
      · exact h.answer _ _ _ _
      · exact h.refuse _ _ _ _ _
    · exact h.refuse _ _ _ _ _

theorem portSetup (tag : Half) (lane width order delivery : Byte) :
    (s.portSetup p tag lane width order delivery).portsWithin :=
  (h.modPort (f := (·.setup width order delivery)) (h.ofUp _ _ _ _ _ _) h.up h.idle).answer _ _ _ _

theorem noticeMask (tag : Half) (lane : Byte) (m : Vector Byte 6) : (s.noticeMask p tag lane m).portsWithin :=
  (h.modPort (f := (·.maskWith m)) (h.ofUp _ _ _ _ _ _) h.up h.idle).answer _ _ _ _

end State.Ready

/-! ### An EDIT's own effect -/

theorem State.addRecord_serves {s t : State} {p : Port} {L : LaneId} {kind : Kind} {c : Ctr} {lo hi x y z : Nat}
    (h : s.addRecord p L kind c lo hi = .done t x y z) : s.Serves t := by
  unfold State.addRecord at h
  dsimp only at h
  split at h
  · split at h <;> cases h
    exact ((((((State.Serves.refl s).setList L _).setList L _).assess).modLane _ _).count _ _).recordEdited _ _ _ _
  · cases h

theorem State.force_serves {s t : State} {p : Port} {a : EditArgs} {L : LaneId} {x y z : Nat}
    (h : State.force p a s L = .done t x y z) : s.Serves t := by
  unfold State.force at h
  dsimp only at h
  split at h
  · cases h
  · split at h
    · cases h
    · split at h
      · cases h
      · exact State.addRecord_serves h

theorem State.splice_serves {s t : State} {p : Port} {a : EditArgs} {L : LaneId} {x y z : Nat}
    (h : State.splice p a s L = .done t x y z) : s.Serves t := by
  unfold State.splice at h
  dsimp only at h
  split at h
  · cases h
  · split at h
    · cases h
    · split at h
      · cases h
      · exact State.addRecord_serves h

theorem State.disposeAt_serves {s t : State} {p : Port} {L : LaneId} {start : Nat} {d : Disp} {changed : State → State}
    (hc : ∀ u, s.Serves u → s.Serves (changed u)) {x y z : Nat}
    (h : s.disposeAt p L start d changed = .done t x y z) : s.Serves t := by
  unfold State.disposeAt at h
  split at h
  · cases h
  · split at h
    · cases h
    · cases h
    · split at h <;> cases h
      · exact .refl s
      · exact hc _ ((((State.Serves.refl s).setList _ _).modLane _ _).recordEdited _ _ _ _)

/-! ### Frames that arrive, and links -/

namespace State.portsWithin
variable {s : State} (h : s.portsWithin)
include h

theorem event : s.event.portsWithin := (State.Serves.refl s).event.portsWithin h

theorem requestArrives {p : Port} (hup : (s.port p).link = .up) (bytes : List Byte) :
    (s.requestArrives p bytes).portsWithin := by
  unfold State.requestArrives
  dsimp only
  split
  · rename_i hroom
    exact h.setPort p ((h p).enqueue hup hroom _)
  · exact ((State.Serves.refl _).raiseTo p _ _ _ _).portsWithin (h.setPort p (h p).countDropped)

theorem frameArrives {p : Port} (hup : (s.port p).link = .up) (bytes : List Byte) :
    (s.frameArrives p bytes).portsWithin := by
  have hmalformed := h.setPort p (h p).countMalformed
  unfold State.frameArrives
  dsimp only
  split
  · exact hmalformed
  · split
    · exact h.setPort p (h p).countCrc
    · split
      · exact h.requestArrives hup bytes
      · split
        · split
          · unfold State.samplesArrive
            dsimp only
            split
            · split
              · exact h.setPort p (h p).countStray
              · exact ((State.Serves.refl s).samplesFor _ _).grant.portsWithin h
            · exact hmalformed
          · exact hmalformed
        · exact hmalformed

theorem linkUp (p : Port) : (s.linkUp p).portsWithin :=
  ((State.Serves.refl _).raiseTo p _ _ _ _).portsWithin (h.modPort p (h p).linkUp)

/-! ### The arbiter -/

theorem takeLog (p : Port) (L : LaneId) : (s.takeLog p L).portsWithin := by
  unfold State.takeLog
  dsimp only
  split
  · exact h
  · exact (((State.Serves.refl _).modLane _ _).assess.settleLane).portsWithin (h.modPort p ((h p).sendFrom L _))

theorem release (p : Port) (L : LaneId) : (s.release p L).portsWithin := by
  unfold State.release
  extract_lets l j sent lost t graded
  have hsent : sent.portsWithin := h.modPort p ((h p).sendFrom L _)
  have ht : sent.Serves t := (((State.Serves.refl sent).modPorts fun q => q.loseIf_serves _).modLane L _).assess
  have hgraded : sent.Serves graded := by
    unfold graded
    split
    · exact ht
    · exact ht.raise _ _ _ _
  exact hgraded.settleLane.portsWithin hsent

/-! ### Outcomes -/

theorem next {t : State} (ht : (.next s : Host.Outcome State Fault Refusal) = .next t) : t.portsWithin := by
  cases ht
  exact h

/-- An event that takes place when due. -/
theorem takePlace {due : Bool} {f : State → State}
    (hf : ∀ u, due = true → s.Serves u → u.portsWithin → (f u).portsWithin) {t : State}
    (ht : s.takePlace due f = .next t) : t.portsWithin := by
  unfold State.takePlace at ht
  split at ht <;> cases ht
  · rename_i hdue
    exact hf _ hdue (State.Serves.refl s).event h.event
  · exact h

theorem takePlace_serves {due : Bool} {f : State → State} (hf : ∀ u, s.Serves u → s.Serves (f u)) {t : State}
    (ht : s.takePlace due f = .next t) : t.portsWithin :=
  h.takePlace (fun u _ hu _ => (hf u hu).portsWithin h) ht

/-- A frame arrives only on a link that is UP (R168). -/
theorem frameRow {p : Port} {bytes : List Byte} {t : State}
    (ht : s.takePlace ((s.port p).link == .up) (·.frameArrives p bytes) = .next t) : t.portsWithin :=
  h.takePlace (fun _ hup hu hw => hw.frameArrives ((hu.port p).link.trans (eq_of_beq hup)) bytes) ht

/-- An entry is taken by a port that can take one. -/
theorem take {p : Port} {e : Entry} {f : State → State} (hf : ∀ u : State, u.Ready p → (f u).portsWithin) {t : State}
    (ht : s.take p e f = .next t) : t.portsWithin := by
  unfold State.take at ht
  split at ht <;> cases ht
  · rename_i q hq
    refine hf _ ?_
    have hp := h p
    unfold PortRec.taking at hq
    split at hq
    · rename_i hready
      obtain ⟨hup, hidle⟩ := hready
      have hw : q.Within ∧ q.link = .up ∧ q.inProgress = none := by
        unfold PortRec.popped at hq
        split at hq
        · cases hq
          exact ⟨hp.enqueue_queue hup e (Nat.zero_le _), by cases e <;> exact hup, by cases e <;> exact hidle⟩
        · rename_i x rest hqueue
          split at hq <;> cases hq
          have hlength := hp.queue
          rw [hqueue, List.length_cons] at hlength
          exact ⟨hp.setQueue hup (by omega), hup, hidle⟩
      exact ⟨h.event.setPort p hw.1, by rw [State.port_setPort_same]; exact hw.2.1,
        by rw [State.port_setPort_same]; exact hw.2.2⟩
    · cases hq
  · exact h

theorem takeEdit {p : Port} {tag : Half} {lane : Byte} {a : EditArgs} {ofRow : Bool} {own : State → LaneId → EditResult}
    (hown : ∀ u L t x y z, own u L = .done t x y z → u.Serves t) {t : State}
    (ht : s.takeEdit p tag lane a ofRow own = .next t) : t.portsWithin := by
  unfold State.takeEdit at ht
  split at ht
  · exact h.take (fun u hu => hu.edit tag lane a (hown u)) ht
  · exact h.next ht

/-! ### The rows of the arbiter -/

theorem releaseRow {p : Port} {t : State} (ht : execRelease p s = .next t) : t.portsWithin := by
  unfold execRelease at ht
  split at ht
  · exact (h.event.release p _).next ht
  · exact h.next ht

theorem logFrameTakenRow {p : Port} {t : State} (ht : execLogFrameTaken p s = .next t) : t.portsWithin := by
  unfold execLogFrameTaken at ht
  split at ht
  · exact (h.event.takeLog p _).next ht
  · exact h.next ht

/-- The response taken is the oldest of the answer list. -/
theorem responseTakenRow {p : Port} {t : State} (ht : execResponseTaken p s = .next t) : t.portsWithin := by
  unfold execResponseTaken at ht
  split at ht
  · rename_i r hchosen
    obtain ⟨rs, hrs⟩ := State.chosen_response hchosen
    refine (h.event.modPort p (f := (·.takeResponse r)) ?_).next ht
    rw [State.port_event]
    exact (h p).takeResponse (State.chosen_up hchosen) hrs
  · exact h.next ht

theorem noticeTakenRow {p : Port} {t : State} (ht : execNoticeTaken p s = .next t) : t.portsWithin := by
  unfold execNoticeTaken at ht
  split at ht
  · exact (h.event.modPort p (f := (·.takeNotice _ _)) ((h.event p).takeNotice _ _)).next ht
  · exact h.next ht

theorem flowFrameTakenRow {p : Port} {t : State} (ht : execFlowFrameTaken p s = .next t) : t.portsWithin := by
  unfold execFlowFrameTaken at ht
  split at ht
  · rename_i e hchosen
    refine (h.event.modPort p (f := (·.takeFlow e)) ?_).next ht
    rw [State.port_event]
    exact (h p).takeFlow (State.chosen_up hchosen) e
  · exact h.next ht

/-! ### The other rows -/

theorem analysePositionRow {L : LaneId} {t : State} (ht : execAnalysePosition L s = .next t) : t.portsWithin := by
  refine h.takePlace_serves (fun u hu => ?_) ht
  have hn : s.Serves (u.analyseNext L) := hu.analyseNext
  exact (hn.when (f := (·.finishAnalysis L)) _ hn.finishAnalysis).grant

theorem renderCompletionRow {t : State} (ht : execRenderCompletion s = .next t) : t.portsWithin := by
  unfold execRenderCompletion at ht
  split at ht
  · exact (((State.Serves.refl s).event.completeRender _).grant.portsWithin h).next ht
  · exact h.next ht

theorem filterSampleRow {k : LineId} {t : Tick} {level : Level} {u : State}
    (hu : execFilterSample k t level s = .next u) : u.portsWithin := by
  have hv := ((State.Serves.refl s).runTo t).setLine k { (s.runTo t).line k with input := level }
  unfold execFilterSample at hu
  dsimp only at hu
  split at hu
  · exact ((hv.takeSample k).portsWithin h).next hu
  · exact (hv.portsWithin h).next hu

/-- A timeout commanded expires in the state that stands at its tick, or nothing does. -/
theorem timeout {t : Tick} {due : Bool} {u : State} (hu : s.Serves u) :
    (if due then u else s.runTo t).portsWithin := by
  split
  · exact hu.portsWithin h
  · exact ((State.Serves.refl s).runTo t).portsWithin h

end State.portsWithin

/-- After a reset the ports hold their reset values, but for what they have sent (R165, R170). -/
theorem State.resetBlocks_portsWithin (s : State) : s.resetBlocks.portsWithin := fun p => by
  cases p <;> exact { PortRec.Within.reset with }

theorem State.unitReset_portsWithin (s : State) : s.unitReset.portsWithin := fun p => by
  cases p <;> exact PortRec.Within.unitReset _ _

/-- Every command's meaning keeps the ports within their limits. -/
theorem exec_portsWithin {c : Instr} {s t : State} (hs : s.portsWithin) (h : exec c s = .next t) : t.portsWithin := by
  have hr := State.Serves.refl s
  cases c with
  | requestFrame p bytes => exact hs.frameRow h
  | samplesFrame p bytes => exact hs.frameRow h
  | laneOpen p tag lane a => exact hs.take (fun u hu => hu.laneOpen tag lane a) h
  | laneClose p tag lane => exact hs.take (fun u hu => hu.laneClose tag lane) h
  | laneDrain p tag lane => exact hs.take (fun u hu => hu.laneDrain tag lane) h
  | laneStatus p tag lane => exact hs.take (fun u hu => hu.laneStatus tag lane) h
  | editVeto p tag lane a =>
    exact hs.takeEdit (fun u L _ _ _ _ hv => State.disposeAt_serves (fun _ hw => hw.count _ _) hv) h
  | editRestore p tag lane a =>
    exact hs.takeEdit (fun u L _ _ _ _ hv => State.disposeAt_serves (fun _ hw => hw) hv) h
  | editForce p tag lane a => exact hs.takeEdit (fun u L _ _ _ _ hv => State.force_serves hv) h
  | editSplice p tag lane a => exact hs.takeEdit (fun u L _ _ _ _ hv => State.splice_serves hv) h
  | reserve p tag lane pos => exact hs.take (fun u hu => hu.reserve tag lane pos) h
  | cursorSet p tag lane pos => exact hs.take (fun u hu => hu.cursorSet tag lane pos) h
  | listRead p tag lane n => exact hs.take (fun u hu => hu.listRead tag lane n) h
  | sync p tag lane => exact hs.take (fun u hu => hu.sync tag lane) h
  | transportSetup p tag lane a => exact hs.take (fun u hu => hu.transportSetup tag lane a) h
  | profileWrite p tag lane slot r => exact hs.take (fun u hu => hu.profileWrite tag lane slot r) h
  | profileRead p tag lane form which => exact hs.take (fun u hu => hu.profileRead tag lane form which) h
  | refresh p tag lane slot => exact hs.take (fun u hu => hu.refresh tag lane slot) h
  | portSetup p tag lane width order delivery =>
    exact hs.take (fun u hu => hu.portSetup tag lane width order delivery) h
  | unitReset p tag lane => exact hs.take (fun u _ => u.unitReset_portsWithin) h
  | noticeMask p tag lane masks => exact hs.take (fun u hu => hu.noticeMask tag lane masks) h
  | condition p tag lane form which => exact hs.take (fun u hu => hu.condition tag lane form which) h
  | identify p tag lane => exact hs.take (fun u hu => hu.answer tag lane _ _) h
  | malformedEntry p tag lane => exact hs.take (fun u hu => hu.answer tag lane _ _) h
  | unknownEntry p tag lane => exact hs.take (fun u hu => hu.answer tag lane _ _) h
  | linkDown p => exact hs.takePlace (fun u _ _ hw => hw.modPort p (hw p).linkDown) h
  | linkUp p => exact hs.takePlace (fun u _ _ hw => hw.linkUp p) h
  | resetPin => exact s.event.resetBlocks_portsWithin.next h
  | release p => exact hs.releaseRow h
  | logFrameTaken p => exact hs.logFrameTakenRow h
  | responseTaken p => exact hs.responseTakenRow h
  | noticeTaken p => exact hs.noticeTakenRow h
  | flowFrameTaken p => exact hs.flowFrameTakenRow h
  | renderStart => exact hs.takePlace_serves (fun u hu => hu.grant) h
  | renderCompletion => exact hs.renderCompletionRow h
  | syncAnswer L => exact hs.takePlace_serves (fun u hu => hu.answerSyncs L) h
  | analysePosition L => exact hs.analysePositionRow h
  | perforationEdge k t => exact (((hr.runTo t).captureEdge k t).portsWithin hs).next h
  | coastTimeout k t =>
    cases h
    exact hs.timeout ((hr.runTo t).coastExpires k)
  | lostTimeout k t =>
    cases h
    exact hs.timeout ((hr.runTo t).lostExpires k)
  | searchTimeout k t =>
    cases h
    exact hs.timeout ((hr.runTo t).setLine k _)
  | go L => exact hs.takePlace_serves (fun u hu => hu.sendGo) h
  | landingPlacement L => exact hs.takePlace_serves (fun u hu => hu.placeLanding.settleLane) h
  | finalBlock L => exact hs.takePlace_serves (fun u hu => (hu.modLane L _).settleLane) h
  | drainAnalysisFinish L => exact hs.takePlace_serves (fun u hu => hu.finishAnalysis.grant) h
  | drainCompletion L => exact hs.takePlace_serves (fun u hu => hu.completeDrain) h
  | retiringDiscard L => exact hs.takePlace_serves (fun u hu => hu.modLane L _) h
  | filterSample k t level => exact hs.filterSampleRow h

theorem State.portsWithin_iff (s : State) : s.portsWithin ↔ ∀ p, (s.port p).bounded :=
  forall_congr' fun p => (s.port p).bounded_iff_within.symm

/-- Settles O56: the row of the command at the front of the queue, or one tick. -/
theorem stepKeepsThePortsBounded : Obligations.StepKeepsThePortsBounded := by
  intro s t h hs
  have hwithin := s.portsWithin_iff.2 hs
  refine t.portsWithin_iff.1 ?_
  unfold step at h
  split at h
  · rename_i c rest _
    exact exec_portsWithin (s := { s with pending := rest }) (((State.Serves.refl s).frame rfl rfl).portsWithin hwithin) h
  · exact (((State.Serves.refl s).runTicks _ _).portsWithin hwithin).next h

end Sys2Proof.Machine

/-! PROOF. Commands out of turn (assumption log 3 and 4): an entry that cannot be taken, an EDIT of another row, an event
that is not due, and a request on an empty queue. The statement O2. -/

namespace Sys2Proof.Machine
open Sys2Proof

/-! ### The rows that take an entry -/

theorem State.takeEdit_ofRow {s : State} {p : Port} {tag : Half} {lane : Byte} {a : EditArgs} {ofRow : Bool}
    (h : ofRow = true) (own : State → LaneId → EditResult) :
    s.takeEdit p tag lane a ofRow own = s.take p (.whole tag lane (.edit a)) (·.edit p tag lane a own) :=
  if_pos h

/-- A command that names an entry is the taking of that entry, with one effect in every state. -/
theorem exec_takes {c : Instr} {p : Port} {e : Entry} (h : entryTaken c = some (p, e)) :
    ∃ f : State → State, ∀ s, exec c s = s.take p e f := by
  have taken : ∀ {q x}, some (q, x) = some (p, e) → ∀ f : State → State, (∀ s, exec c s = s.take q x f) →
      ∃ f : State → State, ∀ s, exec c s = s.take p e f := fun h f hf => by
    cases h
    exact ⟨f, hf⟩
  cases c with
  | editVeto | editRestore | editForce | editSplice =>
    simp only [entryTaken] at h
    split at h
    · rename_i hrow
      cases h
      exact ⟨_, fun s => State.takeEdit_ofRow hrow _⟩
    · cases h
  | laneOpen p tag lane a => exact taken h (·.laneOpen p tag lane a) fun _ => rfl
  | laneClose p tag lane => exact taken h (·.laneClose p tag lane) fun _ => rfl
  | laneDrain p tag lane => exact taken h (·.laneDrain p tag lane) fun _ => rfl
  | laneStatus p tag lane => exact taken h (·.laneStatus p tag lane) fun _ => rfl
  | reserve p tag lane pos => exact taken h (·.reserve p tag lane pos) fun _ => rfl
  | cursorSet p tag lane pos => exact taken h (·.cursorSet p tag lane pos) fun _ => rfl
  | listRead p tag lane n => exact taken h (·.listRead p tag lane n) fun _ => rfl
  | sync p tag lane => exact taken h (·.sync p tag lane) fun _ => rfl
  | transportSetup p tag lane a => exact taken h (·.transportSetup p tag lane a) fun _ => rfl
  | profileWrite p tag lane slot r => exact taken h (·.profileWrite p tag lane slot r) fun _ => rfl
  | profileRead p tag lane form which => exact taken h (·.profileRead p tag lane form which) fun _ => rfl
  | refresh p tag lane slot => exact taken h (·.refresh p tag lane slot) fun _ => rfl
  | portSetup p tag lane w o d => exact taken h (·.portSetup p tag lane w o d) fun _ => rfl
  | unitReset p tag lane => exact taken h (·.unitReset) fun _ => rfl
  | noticeMask p tag lane m => exact taken h (·.noticeMask p tag lane m) fun _ => rfl
  | condition p tag lane form which => exact taken h (·.condition p tag lane form which) fun _ => rfl
  | identify p tag lane => exact taken h (·.answer p tag lane .done (identifyRecord p)) fun _ => rfl
  | malformedEntry p tag lane => exact taken h (·.answer p tag lane .malformed []) fun _ => rfl
  | unknownEntry p tag lane => exact taken h (·.answer p tag lane .unknown []) fun _ => rfl
  | _ => cases h

/-- An EDIT command whose action is not its row's takes nothing. -/
theorem exec_edit_otherRow {c : Instr} {p : Port} {tag : Half} {lane : Byte} {a : EditArgs}
    (hc : c = .editVeto p tag lane a ∨ c = .editRestore p tag lane a ∨ c = .editForce p tag lane a ∨
      c = .editSplice p tag lane a) (h : entryTaken c = none) (s : State) : exec c s = .next s := by
  rcases hc with rfl | rfl | rfl | rfl
  all_goals
    simp only [entryTaken] at h
    split at h
    · cases h
    · rename_i hrow
      exact if_neg hrow

/-! ### Events that are not due -/

theorem State.takePlace_unless {s : State} {due : Bool} {P : Prop} (hdue : due = true → P) (h : ¬ P) (f : State → State) :
    s.takePlace due f = .next s :=
  State.takePlace_not_due (Bool.eq_false_iff.2 (h ∘ hdue)) f

theorem State.grantDue_due {s : State} (h : s.grantDue = true) : s.due .renderStart := by
  simp only [State.grantDue, Bool.and_eq_true, Option.isNone_iff_eq_none, Option.isSome_iff_ne_none] at h
  obtain ⟨hidle, hnext⟩ := h
  refine ⟨hidle, ?_⟩
  by_contra hnone
  push Not at hnone
  exact hnext (s.nextGrant_eq_none_iff.2 fun L => Option.eq_none_iff_forall_ne_some.2 (hnone L))

theorem State.discardDue_due {s : State} {L : LaneId} (h : s.discardDue L = true) : s.due (.retiringDiscard L) := by
  unfold State.discardDue at h
  split at h
  · rename_i w hw
    exact ⟨w, hw, by simpa using h⟩
  · cases h

/-- An event whose condition does not hold changes nothing. -/
theorem exec_not_due {c : Instr} {s : State} (h : ¬ s.due c) : exec c s = .next s := by
  cases c with
  | requestFrame p bytes => exact State.takePlace_unless eq_of_beq h (·.frameArrives p bytes)
  | samplesFrame p bytes => exact State.takePlace_unless eq_of_beq h (·.frameArrives p bytes)
  | linkDown p => exact State.takePlace_unless eq_of_beq h (·.modPort p PortRec.down)
  | linkUp p => exact State.takePlace_unless eq_of_beq h (·.linkUp p)
  | release p =>
    change execRelease p s = _
    unfold execRelease
    split
    · rename_i L hchosen
      exact absurd ⟨L, hchosen⟩ h
    · rfl
  | logFrameTaken p =>
    change execLogFrameTaken p s = _
    unfold execLogFrameTaken
    split
    · rename_i L hchosen
      exact absurd ⟨L, hchosen⟩ h
    · rfl
  | responseTaken p =>
    change execResponseTaken p s = _
    unfold execResponseTaken
    split
    · rename_i r hchosen
      exact absurd ⟨r, hchosen⟩ h
    · rfl
  | noticeTaken p =>
    change execNoticeTaken p s = _
    unfold execNoticeTaken
    split
    · rename_i i e hchosen
      exact absurd ⟨i, e, hchosen⟩ h
    · rfl
  | flowFrameTaken p =>
    change execFlowFrameTaken p s = _
    unfold execFlowFrameTaken
    split
    · rename_i e hchosen
      exact absurd ⟨e, hchosen⟩ h
    · rfl
  | renderStart => exact State.takePlace_unless State.grantDue_due h State.grant
  | renderCompletion =>
    have hidle : s.engine.inFlight = none := by simpa [State.due] using h
    change execRenderCompletion s = _
    rw [execRenderCompletion, hidle]
  | syncAnswer L => exact State.takePlace_unless (s.syncDue_iff L).1 h (·.answerSyncs L)
  | analysePosition L =>
    have hcan : (s.lane L).canAnalyse = true → s.due (.analysePosition L) := fun hd => by
      simpa [Lane.canAnalyse, State.due] using hd
    exact State.takePlace_unless hcan h fun t =>
      ((t.analyseNext L).when ((t.analyseNext L).lane L).finishDue (·.finishAnalysis L)).grant
  | go L => exact State.takePlace_unless id h (·.sendGo L)
  | landingPlacement L => exact State.takePlace_unless id h fun t => (t.placeLanding L).settleLane L
  | finalBlock L => exact State.takePlace_unless id h fun t => (t.modLane L Lane.fixFinal).settleLane L
  | drainAnalysisFinish L => exact State.takePlace_unless id h fun t => (t.finishAnalysis L).grant
  | drainCompletion L => exact State.takePlace_unless id h (·.completeDrain L)
  | retiringDiscard L => exact State.takePlace_unless State.discardDue_due h (·.discardRetiring L)
  | _ => exact absurd trivial h

/-! ### A request on an empty queue -/

/-- A malformed entry is counted as it arrives, and no other. -/
theorem PortRec.enqueue_malformed (q : PortRec) (e : Entry) : (q.enqueue e).malformed = match e with
    | .malformed _ _ => min (q.malformed + 1) 4294967295
    | .whole _ _ _ => q.malformed
    | .unknown _ _ => q.malformed := by
  cases e <;> rfl

theorem PortRec.enqueue_eq (q : PortRec) (e : Entry) :
    q.enqueue e = { q with queue := q.queue ++ [e], malformed := (q.enqueue e).malformed } := by
  cases e <;> rfl

theorem State.setPort_setPort (s : State) (p : Port) (q r : PortRec) : (s.setPort p q).setPort p r = s.setPort p r := by
  cases p <;> rfl

theorem State.event_setPort (s : State) (p : Port) (q : PortRec) : (s.setPort p q).event = s.event.setPort p q := by
  cases p <;> rfl

/-- On an empty queue the taking of an entry is that of the entry just arrived. -/
theorem State.take_empty {s : State} {p : Port} {e : Entry} (hup : (s.port p).link = .up)
    (hidle : (s.port p).inProgress = none) (hqueue : (s.port p).queue = []) (f : State → State) :
    s.take p e f = (s.setPort p ((s.port p).enqueue e)).take p e f := by
  have hq := (s.port p).enqueue_eq e
  have harrived : ((s.port p).enqueue e).taking e = some { (s.port p).enqueue e with queue := [] } := by
    refine PortRec.taking_head ?_ ?_ ?_
    · rw [hq, hup]
    · rw [hq, hidle]
    · rw [hq, hqueue]
      rfl
  unfold State.take
  rw [State.port_setPort_same, harrived, PortRec.taking_empty hup hidle hqueue]
  simp only [State.event_setPort, State.setPort_setPort]

/-- Settles O2: a command that names an entry is its taking (`exec_takes`), and the other commands are events. -/
theorem commandsOutOfTurn : Obligations.CommandsOutOfTurn := by
  refine ⟨fun c s h => ?_, fun c s p e h hup hidle hqueue => ?_⟩
  · rcases h with ⟨p, e, he, hcannot⟩ | ⟨p, tag, lane, a, hc, hnone⟩ | hdue
    · obtain ⟨f, hf⟩ := exec_takes he
      rw [hf, State.take_cannot hcannot]
    · exact exec_edit_otherRow hc hnone s
    · exact exec_not_due hdue
  · obtain ⟨f, hf⟩ := exec_takes h
    rw [hf, hf, State.take_empty hup hidle hqueue, PortRec.enqueue_eq, hqueue, PortRec.enqueue_malformed]
    rfl

end Sys2Proof.Machine

/-! PROOF. The arbiter's choice (R161, R162, R175, R176): the notice entry of the earliest order, what a lane presents, and
the classes in their order; and the taking of a flow entry, a RESPONSE and a notice. The statements O38 and O39. -/

namespace Sys2Proof.Machine
open Sys2Proof

/-! ### The notice entry of the earliest order (R175, R176) -/

theorem PortRec.candidate_eq_some_iff (q : PortRec) (i : Fin 42) (e : NoticeEntry) :
    q.candidate i = some e ↔ q.entries[i.val] = some e ∧ q.masks[i.val / 7]'(by omega) = false := by
  unfold PortRec.candidate
  split
  · rename_i hmask
    simp [hmask]
  · rename_i hmask
    simp [hmask]

/-- Among the entries of `is` the choice `best` is the candidate of the earliest order, the first where orders agree, or
there is no candidate. -/
def PortRec.IsEarliest (q : PortRec) (is : List (Fin 42)) : Option (Fin 42 × NoticeEntry) → Prop
  | none => ∀ i ∈ is, q.candidate i = none
  | some (i, e) => i ∈ is ∧ q.candidate i = some e ∧
      ∀ j ∈ is, ∀ f, q.candidate j = some f → e.order < f.order ∨ (e.order = f.order ∧ i ≤ j)

/-- One more entry, behind those looked at, takes the place of the choice only where its order is earlier. -/
theorem PortRec.IsEarliest.append {q : PortRec} {seen : List (Fin 42)} {best : Option (Fin 42 × NoticeEntry)}
    (h : q.IsEarliest seen best) {i : Fin 42} (hi : ∀ j ∈ seen, j < i) {next : Option (Fin 42 × NoticeEntry)}
    (hnone : q.candidate i = none → next = best)
    (hfirst : ∀ e, q.candidate i = some e → best = none → next = some (i, e))
    (hlater : ∀ e j b, q.candidate i = some e → best = some (j, b) →
      next = if e.order < b.order then some (i, e) else some (j, b)) : q.IsEarliest (seen ++ [i]) next := by
  simp only [PortRec.IsEarliest] at h
  cases hc : q.candidate i with
  | none =>
    rw [hnone hc]
    cases best with
    | none => simpa [IsEarliest, hc, or_imp, forall_and] using h
    | some c =>
      obtain ⟨hmem, hcand, hmin⟩ := h
      refine ⟨List.mem_append_left _ hmem, hcand, fun k hk f hf => ?_⟩
      rcases List.mem_append.1 hk with hk | hk
      · exact hmin k hk f hf
      · rw [List.mem_singleton.1 hk, hc] at hf
        cases hf
  | some e =>
    cases best with
    | none =>
      rw [hfirst e hc rfl]
      refine ⟨List.mem_append_right _ (List.mem_singleton_self i), hc, fun k hk f hf => ?_⟩
      rcases List.mem_append.1 hk with hk | hk
      · rw [h k hk] at hf
        cases hf
      · rw [List.mem_singleton.1 hk, hc] at hf
        cases hf
        exact .inr ⟨rfl, (List.mem_singleton.1 hk).ge⟩
    | some c =>
      obtain ⟨j, b⟩ := c
      obtain ⟨hmem, hcand, hmin⟩ := h
      rw [hlater e j b hc rfl]
      split
      · rename_i hlt
        refine ⟨List.mem_append_right _ (List.mem_singleton_self i), hc, fun k hk f hf => ?_⟩
        rcases List.mem_append.1 hk with hk | hk
        · have hf := hmin k hk f hf
          omega
        · rw [List.mem_singleton.1 hk, hc] at hf
          cases hf
          exact .inr ⟨rfl, (List.mem_singleton.1 hk).ge⟩
      · rename_i hle
        refine ⟨List.mem_append_left _ hmem, hcand, fun k hk f hf => ?_⟩
        rcases List.mem_append.1 hk with hk | hk
        · exact hmin k hk f hf
        · rw [List.mem_singleton.1 hk] at hf ⊢
          rw [hc] at hf
          cases hf
          have hji := hi j hmem
          rcases Nat.lt_or_eq_of_le (Nat.not_lt.1 hle) with hlt | heq
          · exact .inl hlt
          · exact .inr ⟨heq, hji.le⟩

theorem PortRec.nextNotice_isEarliest (q : PortRec) : q.IsEarliest (List.finRange 42) q.nextNotice := by
  unfold PortRec.nextNotice
  have hsorted : (List.finRange 42).Pairwise (· < ·) := List.pairwise_lt_finRange 42
  generalize List.finRange 42 = is at hsorted
  induction is using List.reverseRecOn with
  | nil => simp [PortRec.IsEarliest]
  | append_singleton is i ih =>
    rw [List.pairwise_append] at hsorted
    obtain ⟨hfront, -, hlast⟩ := hsorted
    rw [List.foldl_append, List.foldl_cons, List.foldl_nil]
    refine (ih hfront).append (fun j hj => hlast j hj i (List.mem_singleton_self i)) (fun hc => ?_)
      (fun e hc hb => ?_) (fun e j b hc hb => ?_)
    · simp only [hc]
    · simp only [hc, hb]
    · simp only [hc, hb]

theorem PortRec.nextNotice_none {q : PortRec} (h : ∀ i e, q.candidate i ≠ some e) : q.nextNotice = none := by
  have hearliest := q.nextNotice_isEarliest
  cases hn : q.nextNotice with
  | none => rfl
  | some c =>
    rw [hn] at hearliest
    obtain ⟨-, hc, -⟩ := hearliest
    exact absurd hc (h _ _)

/-- Two candidates that are each no later than the other are one. -/
theorem PortRec.nextNotice_some {q : PortRec} {i : Fin 42} {e : NoticeEntry} (hc : q.candidate i = some e)
    (hmin : ∀ j f, q.candidate j = some f → e.order < f.order ∨ (e.order = f.order ∧ i ≤ j)) :
    q.nextNotice = some (i, e) := by
  have hearliest := q.nextNotice_isEarliest
  cases hn : q.nextNotice with
  | none =>
    rw [hn] at hearliest
    rw [hearliest i (List.mem_finRange i)] at hc
    cases hc
  | some c =>
    obtain ⟨j, f⟩ := c
    rw [hn] at hearliest
    obtain ⟨-, hj, hminj⟩ := hearliest
    have hi := hminj i (List.mem_finRange i) e hc
    have hij := hmin j f hj
    obtain rfl : i = j := by omega
    rw [hc] at hj
    rw [Option.some.inj hj]

/-! ### The classes in their order (R161) -/

section
variable {s : State} {p : Port}

theorem State.chosen_down (h : (s.port p).link = .down) : s.chosen p = none := by
  simp [State.chosen, h]

theorem State.chosen_of_flow {e : FlowEntry} {rest : List FlowEntry} (hup : (s.port p).link = .up)
    (h : (s.port p).flow = e :: rest) : s.chosen p = some (.flow e) := by
  simp [State.chosen, hup, h]

theorem State.chosen_of_answers {r : Response} {rest : List Response} (hup : (s.port p).link = .up)
    (hflow : (s.port p).flow = []) (h : (s.port p).answers = r :: rest) : s.chosen p = some (.response r) := by
  simp [State.chosen, hup, hflow, h]

theorem State.chosen_of_notice {i : Fin 42} {e : NoticeEntry} (hup : (s.port p).link = .up)
    (hflow : (s.port p).flow = []) (hanswers : (s.port p).answers = []) (h : (s.port p).nextNotice = some (i, e)) :
    s.chosen p = some (.notice i e) := by
  simp [State.chosen, hup, hflow, hanswers, h]

/-- With no other candidate the lanes are asked in turn, from the one after the pointer (R162). -/
theorem State.chosen_of_quiet (hup : (s.port p).link = .up) (hflow : (s.port p).flow = [])
    (hanswers : (s.port p).answers = []) (h : (s.port p).nextNotice = none) :
    s.chosen p = Fin.findSome? fun n : Fin 6 => s.presented p ((s.port p).pointer + 1 + n) := by
  have hlanes : s.chosen p = (lanesAfter (s.port p).pointer).findSome? (s.presented p) := by
    simp [State.chosen, hup, hflow, hanswers, h]
  rw [hlanes, lanesAfter_eq, List.findSome?_map, Fin.findSome?_eq_findSome?_finRange]
  rfl

end

/-! ### What a lane presents (R22, R61, R162) -/

/-- The lane is open, its sink is port `p`, and the port takes lane data (R167, R168). -/
def State.deliversTo (s : State) (p : Port) (L : LaneId) : Prop :=
  (s.lane L).state ≠ .closed ∧ (s.lane L).sink = p ∧ (s.port p).link = .up ∧ (s.port p).delivery = true

/-- The release condition of R22, less that of the port. -/
def Lane.oldestReady (l : Lane) : Prop :=
  (l.block l.oldest).state = .rendered ∧
    (l.state = .draining ∨ ∀ i, i < l.hold → (l.block (l.oldest + 1 + i)).rendered = true)

theorem Lane.presentsLog_iff (l : Lane) (q : PortRec) : l.presentsLog q = true ↔
    l.state ≠ .closed ∧ l.logQueue ≠ [] ∧ q.link = .up ∧ q.delivery = true := by
  simp [Lane.presentsLog, Lane.isOpen_iff, and_assoc]

theorem Lane.presentsRestored_iff (l : Lane) (q : PortRec) : l.presentsRestored q = true ↔
    l.logQueue = [] ∧ l.state ≠ .closed ∧ l.oldestReady ∧ q.link = .up ∧ q.delivery = true := by
  simp [Lane.presentsRestored, Lane.offered, Lane.isOpen_iff, Lane.oldestReady, and_assoc]

theorem State.presented_cases (s : State) (p : Port) (L : LaneId) :
    (s.deliversTo p L ∧ (s.lane L).logQueue ≠ [] ∧ s.presented p L = some (.log L)) ∨
    (s.deliversTo p L ∧ (s.lane L).logQueue = [] ∧ (s.lane L).oldestReady ∧ s.presented p L = some (.restored L)) ∨
    ((¬ s.deliversTo p L ∨ ((s.lane L).logQueue = [] ∧ ¬ (s.lane L).oldestReady)) ∧ s.presented p L = none) := by
  unfold State.presented State.deliversTo
  simp only [Lane.presentsLog_iff]
  split
  · split
    · rename_i hsink hlog
      obtain ⟨hopen, hqueue, hport⟩ := hlog
      exact .inl ⟨⟨hopen, hsink, hport⟩, hqueue, rfl⟩
    · split
      · rename_i hsink _ hrestored
        rw [Lane.presentsRestored_iff] at hrestored
        obtain ⟨hqueue, hopen, hready, hport⟩ := hrestored
        exact .inr (.inl ⟨⟨hopen, hsink, hport⟩, hqueue, hready, rfl⟩)
      · rename_i hrestored
        rw [Lane.presentsRestored_iff] at hrestored
        exact .inr (.inr ⟨by tauto, rfl⟩)
  · exact .inr (.inr ⟨by tauto, rfl⟩)

/-- Settles O38: the classes in their order, the notice by `PortRec.nextNotice_isEarliest`, the lanes by
`State.presented_cases`. -/
theorem arbiterTakesTheFirstClass : Obligations.ArbiterTakesTheFirstClass := by
  refine ⟨?classes, ?lanes⟩
  case classes =>
    intro s p q candidate quiet
    have hcandidate : ∀ i e, q.candidate i = some e ↔ candidate i e := q.candidate_eq_some_iff
    have hquiet : quiet → s.chosen p = Fin.findSome? fun n : Fin 6 => s.presented p (q.pointer + 1 + n) := by
      rintro ⟨hup, hflow, hanswers, hnone⟩
      exact State.chosen_of_quiet hup hflow hanswers
        (PortRec.nextNotice_none fun i e hc => hnone i e ((hcandidate i e).1 hc))
    refine ⟨State.chosen_down, fun e rest => State.chosen_of_flow, fun r rest => State.chosen_of_answers,
      fun i e hup hflow hanswers hc hmin => ?_, fun n c hq hn hbefore => ?_, fun hq hnone => ?_⟩
    · exact State.chosen_of_notice hup hflow hanswers (PortRec.nextNotice_some ((hcandidate i e).2 hc)
        fun j f hf => hmin j f ((hcandidate j f).1 hf))
    · rw [hquiet hq, Fin.findSome?_eq_some_iff]
      exact ⟨n, hn, hbefore⟩
    · rw [hquiet hq, Fin.findSome?_eq_none_iff]
      exact fun n => hnone _
  case lanes =>
    intro s p L l open_ offered
    have hopen : open_ = s.deliversTo p L := rfl
    have hready : offered = (s.lane L).oldestReady := rfl
    rw [hopen, hready]
    rcases s.presented_cases p L with ⟨hd, hlog, he⟩ | ⟨hd, hlog, hr, he⟩ | ⟨hnot, he⟩
    · simp [he, hd, hlog, l]
    · simp [he, hd, hlog, hr, l]
    · rw [he]
      refine ⟨⟨nofun, ?_⟩, ⟨nofun, ?_⟩, fun _ => hnot, fun _ => rfl⟩
      · tauto
      · tauto

/-! ### Flow entries, responses and notices taken (R158, R159, R163, R176) -/

theorem exec_flowFrameTaken {s : State} {p : Port} {e : FlowEntry} (h : s.chosen p = some (.flow e)) :
    exec (.flowFrameTaken p) s = .next (s.event.setPort p ((s.port p).takeFlow e)) := by
  show execFlowFrameTaken p s = _
  rw [execFlowFrameTaken, h, ← s.port_event p]
  rfl

theorem exec_responseTaken {s : State} {p : Port} {r : Response} (h : s.chosen p = some (.response r)) :
    exec (.responseTaken p) s = .next (s.event.setPort p ((s.port p).takeResponse r)) := by
  show execResponseTaken p s = _
  rw [execResponseTaken, h, ← s.port_event p]
  rfl

theorem exec_noticeTaken {s : State} {p : Port} {i : Fin 42} {e : NoticeEntry} (h : s.chosen p = some (.notice i e)) :
    exec (.noticeTaken p) s = .next (s.event.setPort p ((s.port p).takeNotice i e)) := by
  show execNoticeTaken p s = _
  rw [execNoticeTaken, h, ← s.port_event p]
  rfl

/-- Settles O39: each frame and what leaves its class stand in the port's own record. -/
theorem flowResponseAndNoticeAreTaken : Obligations.FlowResponseAndNoticeAreTaken := fun _ _ =>
  ⟨fun _ h => exec_flowFrameTaken h, fun _ h => exec_responseTaken h, fun _ _ h => exec_noticeTaken h⟩

end Sys2Proof.Machine

/-! PROOF. PORT SETUP and NOTICE MASK (R166, R177, R185), the link events (R168, R169) and the resets (R170, R171, R178). The
statements O12, O14 and O15. -/

namespace Sys2Proof.Machine
open Sys2Proof

/-! ### PORT SETUP (R166) -/

theorem widthOf_getD (b : Byte) (w : Width) :
    (widthOf b).getD w = if b = 16#8 then .w16 else if b = 24#8 then .w24 else w := by
  unfold widthOf
  split
  · rfl
  · split <;> rfl

theorem orderOf_getD (b : Byte) (o : ByteOrder) :
    (orderOf b).getD o = if b = 0#8 then .little else if b = 1#8 then .big else o := by
  unfold orderOf
  split
  · rfl
  · split <;> rfl

theorem onOff_getD (b : Byte) (d : Bool) :
    (onOff b).getD d = if b = 0#8 then false else if b = 1#8 then true else d := by
  unfold onOff
  split
  · rfl
  · split <;> rfl

theorem Width.byte_eq (w : Width) : w.byte = if w = .w16 then 16#8 else 24#8 := by cases w <;> rfl

theorem ByteOrder.byte_eq (o : ByteOrder) : o.byte = if o = .little then 0#8 else 1#8 := by cases o <;> rfl

theorem exec_portSetup {s : State} {p : Port} {tag : Half} {lane width order delivery : Byte} {rest : List Entry}
    (h : s.offers p (.whole tag lane (.portSetup width order delivery)) rest) :
    exec (.portSetup p tag lane width order delivery) s =
      .next ((s.took p rest).portSetup p tag lane width order delivery) :=
  State.take_offers h (·.portSetup p tag lane width order delivery)

/-! ### NOTICE MASK (R177, R185) -/

/-- The number whose bit `j` is `f j`. -/
def bitSum {n : Nat} (f : Fin n → Bool) : Nat := ((List.finRange n).map fun j => if f j then 2 ^ j.val else 0).sum

theorem bitSum_succ {n : Nat} (f : Fin (n + 1) → Bool) : bitSum f = (f 0).toNat + 2 * bitSum fun j => f j.succ := by
  have hdouble : ∀ j : Fin n, (if f j.succ then 2 ^ (j.val + 1) else 0) = 2 * if f j.succ then 2 ^ j.val else 0 := fun j => by
    split
    · exact Nat.pow_succ'
    · rfl
  rw [bitSum, List.finRange_succ, List.map_cons, List.sum_cons, List.map_map]
  congr 1
  · cases f 0 <;> rfl
  · simp only [Function.comp_def, Fin.val_succ, hdouble, List.sum_map_mul_left]
    rfl

theorem bitSum_lt {n : Nat} (f : Fin n → Bool) : bitSum f < 2 ^ n := by
  induction n with
  | zero => exact Nat.zero_lt_one
  | succ n ih =>
    have hrest := ih fun j => f j.succ
    have hfirst := (f 0).toNat_le
    rw [bitSum_succ, Nat.pow_succ]
    omega

theorem testBit_bitSum {n : Nat} (f : Fin n → Bool) (j : Fin n) : (bitSum f).testBit j.val = f j := by
  induction n with
  | zero => exact j.elim0
  | succ n ih =>
    rw [bitSum_succ]
    refine Fin.cases ?_ (fun i => ?_) j
    · cases hf : f 0 <;> simp [Nat.testBit_zero, Nat.add_mod]
    · have hhalf : ((f 0).toNat + 2 * bitSum fun j => f j.succ) / 2 = bitSum fun j => f j.succ := by
        have hfirst := (f 0).toNat_le
        omega
      rw [Fin.val_succ, Nat.testBit_succ, hhalf]
      exact ih (fun j => f j.succ) i

/-- The pending summary as a byte of bits. -/
theorem PortRec.summary_eq (q : PortRec) (c : Fin 6) :
    q.summary c = natByte (bitSum fun j : Fin 7 => (q.entries[7 * c.val + j.val]'(by omega)).isSome) := rfl

theorem PortRec.summary_bit (q : PortRec) (c : Fin 6) (j : Fin 7) :
    (q.summary c).getLsbD j.val = (q.entries[7 * c.val + j.val]'(by omega)).isSome := by
  rw [q.summary_eq, natByte, BitVec.getLsbD_ofNat, testBit_bitSum, decide_eq_true (by omega), Bool.true_and]

theorem PortRec.summary_top (q : PortRec) (c : Fin 6) : (q.summary c).getLsbD 7 = false := by
  rw [q.summary_eq, natByte, BitVec.getLsbD_ofNat, Nat.testBit_lt_two_pow (bitSum_lt _), Bool.and_false]

theorem PortRec.maskReport_length (q : PortRec) : q.maskReport.length = 13 := by
  simp [PortRec.maskReport]

theorem PortRec.maskReport_mask (q : PortRec) (c : Fin 6) :
    q.maskReport[c.val + 1]? = some (if q.masks[c.val] then 1#8 else 0#8) := by
  rw [PortRec.maskReport, List.cons_append, List.getElem?_cons_succ, List.getElem?_append_left (by simp)]
  simp [flagByte]

theorem PortRec.maskReport_summary (q : PortRec) (c : Fin 6) : q.maskReport[c.val + 7]? = some (q.summary c) := by
  rw [PortRec.maskReport, List.getElem?_append_right (by simp)]
  simp

theorem exec_noticeMask {s : State} {p : Port} {tag : Half} {lane : Byte} {m : Vector Byte 6} {rest : List Entry}
    (h : s.offers p (.whole tag lane (.noticeMask m)) rest) :
    exec (.noticeMask p tag lane m) s = .next ((s.took p rest).noticeMask p tag lane m) :=
  State.take_offers h (·.noticeMask p tag lane m)

theorem maskOf_getD (b : Byte) (d : Bool) :
    (maskOf b).getD d = if b = 1#8 then true else if b = 0#8 then false else d := by
  rw [maskOf, onOff_getD]
  split
  · rename_i h
    subst h
    rfl
  · rfl

/-- Settles O12: the settings and masks by their codes, and the report of the port as it then stands. -/
theorem portSetupAndNoticeMaskSetTheSendingPort : Obligations.PortSetupAndNoticeMaskSetTheSendingPort := by
  refine ⟨?setup, ?mask⟩
  case setup =>
    intro s p tag lane width order delivery rest hoffers q w o d
    have hset : (s.took p rest).modPort p (·.setup width order delivery) =
        (s.took p rest).setPort p { q with queue := rest, width := w, order := o, delivery := d } := by
      rw [State.modPort_took, PortRec.setup, widthOf_getD, orderOf_getD, onOff_getD]
    rw [exec_portSetup hoffers]
    unfold State.portSetup
    rw [hset, State.answer_eq, State.port_setPort_same, PortRec.setupReport, Width.byte_eq, ByteOrder.byte_eq]
    rfl
  case mask =>
    intro s p tag lane m rest hoffers q
    refine ⟨(q.maskWith m).masks, (q.maskWith m).maskReport, fun c => ?_, PortRec.maskReport_length _, rfl,
      PortRec.maskReport_mask _, fun c => ⟨_, PortRec.maskReport_summary _ c, PortRec.summary_top _ c,
        PortRec.summary_bit _ c⟩, ?_⟩
    · rw [← maskOf_getD]
      exact Vector.getElem_ofFn ..
    · rw [exec_noticeMask hoffers]
      unfold State.noticeMask
      rw [State.modPort_took, State.answer_eq, State.port_setPort_same]
      rfl

/-! ### Link events (R168, R169) -/

/-- An occurrence raised toward one port sets one entry of it. -/
theorem State.raiseTo_eq (s : State) (p : Port) (c : NoticeCode) (who : Option LaneId) (pos d : Nat) :
    s.raiseTo p c who pos d = s.setPort p { s.port p with
      entries := (s.port p).entries.set (entryIndex c.category who).val (s.foldedEntry p c who pos d) } := by
  rw [State.foldedEntry_eq]
  rfl

theorem exec_linkDown {s : State} {p : Port} (h : (s.port p).link = .up) :
    exec (.linkDown p) s = .next (s.event.setPort p (s.port p).down) := by
  rw [← s.port_event p]
  exact State.takePlace_due (beq_iff_eq.2 h) (·.modPort p PortRec.down)

theorem exec_linkUp {s : State} {p : Port} (h : (s.port p).link = .down) :
    exec (.linkUp p) s = .next (s.event.linkUp p) :=
  State.takePlace_due (beq_iff_eq.2 h) (·.linkUp p)

/-- Settles O14: the port after the event, by the table of R165, and the notice by `State.foldedEntry_eq`. -/
theorem linkEventsReachTheirPortAlone : Obligations.LinkEventsReachTheirPortAlone := by
  refine ⟨fun s p h => exec_linkDown h, fun s p h => ?_⟩
  intro t
  have hevent : t.port p = s.port p := s.port_event p
  rw [exec_linkUp h, State.linkUp, State.raiseTo_eq, State.modPort, State.port_event, State.port_setPort_same,
    State.setPort_setPort, State.foldedEntry_eq, State.foldedEntry_eq, State.setPort_events, State.port_setPort_same,
    hevent]
  cases (s.port p).firstUp <;> rfl

/-! ### Resets (R170, R171, R178) -/

theorem State.resetBlocks_line (s : State) (k : LineId) : s.resetBlocks.line k = Line.reset (s.line k).input :=
  mapVec_getElem _ _ _

/-- A port after UNIT RESET, in the words of the statement. -/
theorem PortRec.unitReset_eq (q : PortRec) (order : Nat) : q.unitReset order =
    { PortRec.reset with
      link := q.link
      firstUp := false
      sent := q.sent
      entries := if q.link = .up then PortRec.reset.entries.set 41 (some ⟨.reset, q.resetCount, 0, 0, order⟩)
        else PortRec.reset.entries } := by
  unfold PortRec.unitReset
  dsimp only
  split <;> rfl

theorem State.unitReset_port (s : State) (r : Port) : s.unitReset.port r = (s.port r).unitReset s.events := by
  cases r <;> rfl

/-- A UNIT RESET reads a port's link, frames sent and notice entries, which the taking of its entry leaves. -/
theorem State.took_unitReset (s : State) (p r : Port) (rest : List Entry) (order : Nat) :
    ((s.took p rest).port r).unitReset order = (s.port r).unitReset order := by
  cases p <;> cases r <;> rfl

/-- Settles O15: every block as `State.resetBlocks` leaves it, and the ports after UNIT RESET by `PortRec.unitReset_eq`. -/
theorem resetsRestoreEveryBlock : Obligations.ResetsRestoreEveryBlock := by
  refine ⟨fun s => ⟨s.event.resetBlocks, rfl, rfl, rfl, rfl, rfl, rfl, fun p => ?_, s.event.resetBlocks_line, rfl, rfl⟩,
    fun s p tag lane rest hoffers => ?_⟩
  · cases p <;> rfl
  · have hline : ∀ k, (s.took p rest).unitReset.line k = Line.reset (s.line k).input := fun k => by
      rw [← s.took_line p rest k]
      exact (s.took p rest).resetBlocks_line k
    have hport : ∀ r, (s.took p rest).unitReset.port r = _ := fun r => by
      rw [State.unitReset_port, State.took_events, State.took_unitReset, PortRec.unitReset_eq]
    refine ⟨_, State.take_offers hoffers State.unitReset, rfl, rfl, rfl, rfl, rfl, hline, State.took_pending _ _ _,
      State.took_events _ _ _, fun r => ?_⟩
    rw [hport r]
    exact ⟨rfl, rfl, rfl, rfl⟩

end Sys2Proof.Machine

/-! PROOF. The arrival of a frame on a link (R155 to R157): the check that fails first, and the queue entry a REQUEST frame
makes. The statements O5 and O6. -/

namespace Sys2Proof.Machine
open Sys2Proof

/-! ### The checks of R155 in their order -/

/-- Whichever row an arriving frame is commanded by, its bytes decide. -/
theorem exec_frame {c : Instr} {s : State} {p : Port} {bytes : List Byte}
    (hc : c = .requestFrame p bytes ∨ c = .samplesFrame p bytes) (hup : (s.port p).link = .up) :
    exec c s = .next (s.event.frameArrives p bytes) := by
  rcases hc with rfl | rfl
  · exact State.takePlace_due (beq_iff_eq.2 hup) (·.frameArrives p bytes)
  · exact State.takePlace_due (beq_iff_eq.2 hup) (·.frameArrives p bytes)

theorem frameCrcOk_iff (bytes : List Byte) : frameCrcOk bytes = true ↔
    crc32 (bytes.take (bytes.length - 4)) = fieldAt bytes (bytes.length - 4) 4 := by
  rw [frameCrcOk, beq_iff_eq]

theorem frameLengthOk_iff (bytes : List Byte) : frameLengthOk bytes = true ↔ fieldAt bytes 6 2 = bytes.length - 12 := by
  rw [frameLengthOk, beq_iff_eq]

section
variable {s : State} {p : Port} {bytes : List Byte}

theorem State.frameArrives_short (h : bytes.length < 12) :
    s.frameArrives p bytes = s.setPort p (s.port p).countMalformed :=
  if_pos h

theorem State.frameArrives_badCrc (hlen : 12 ≤ bytes.length) (h : frameCrcOk bytes = false) :
    s.frameArrives p bytes = s.setPort p (s.port p).countCrc := by
  simp only [State.frameArrives, if_neg (Nat.not_lt.2 hlen), h, if_true]

theorem State.frameArrives_request (hlen : 12 ≤ bytes.length) (hcrc : frameCrcOk bytes = true)
    (hkind : byteAt bytes 0 = kindRequest) : s.frameArrives p bytes = s.requestArrives p bytes := by
  simp only [State.frameArrives, if_neg (Nat.not_lt.2 hlen), hcrc, hkind, Bool.true_eq_false, if_true, if_false]

theorem State.frameArrives_samples (hlen : 12 ≤ bytes.length) (hcrc : frameCrcOk bytes = true)
    (hkind : byteAt bytes 0 = kindSamples) : s.frameArrives p bytes =
      if frameLengthOk bytes then s.samplesArrive p bytes else s.setPort p (s.port p).countMalformed := by
  have hne : kindSamples ≠ kindRequest := by decide
  simp only [State.frameArrives, if_neg (Nat.not_lt.2 hlen), hcrc, hkind, hne, Bool.true_eq_false, if_true, if_false]

theorem State.frameArrives_otherKind (hlen : 12 ≤ bytes.length) (hcrc : frameCrcOk bytes = true)
    (hrequest : byteAt bytes 0 ≠ kindRequest) (hsamples : byteAt bytes 0 ≠ kindSamples) :
    s.frameArrives p bytes = s.setPort p (s.port p).countMalformed := by
  simp only [State.frameArrives, if_neg (Nat.not_lt.2 hlen), hcrc, hrequest, hsamples, Bool.true_eq_false, if_false]

/-! ### SAMPLES frames discarded (R156) -/

theorem Width.size_eq (w : Width) : w.size = if w = .w16 then 2 else 3 := by cases w <;> rfl

theorem samplesLengthOk_iff (w : Width) (payload : List Byte) : samplesLengthOk w payload = true ↔
    5 ≤ payload.length ∧ payload.length = 5 + sampleCount payload * if w = .w16 then 2 else 3 := by
  simp [samplesLengthOk, Width.size_eq]

theorem State.samplesArrive_badLength (h : samplesLengthOk (s.port p).width (framePayload bytes) = false) :
    s.samplesArrive p bytes = s.setPort p (s.port p).countMalformed := by
  simp only [State.samplesArrive, h, Bool.false_eq_true, if_false]

theorem State.samplesArrive_noLane (h : samplesLengthOk (s.port p).width (framePayload bytes) = true)
    (hlane : 5 < (byteAt bytes 1).toNat) : s.samplesArrive p bytes = s.setPort p (s.port p).countStray := by
  simp only [State.samplesArrive, h, if_true, laneOf_none hlane]

end

/-- Settles O6: the checks of R155 and R156 in their order, the first that fails named. -/
theorem discardedFrameOnlyCounts : Obligations.DiscardedFrameOnlyCounts := by
  intro s p bytes c hc hup t q malformed payload count size
  have hport : s.event.port p = q := s.port_event p
  have hcount (h : s.event.frameArrives p bytes = s.event.setPort p q.countMalformed) : malformed :=
    (exec_frame hc hup).trans (congrArg Host.Outcome.next h)
  refine ⟨fun hshort => hcount ?_, fun hlen => ⟨fun hcrc => ?_, fun hcrc => ⟨fun h1 h2 => hcount ?_, fun hkind =>
    ⟨fun hfield => hcount ?_, fun hfield => ⟨fun hbad => hcount ?_, fun hfive hsize hlane => ?_⟩⟩⟩⟩⟩
  · rw [State.frameArrives_short hshort, hport]
  · have hbad : frameCrcOk bytes = false := by rwa [Bool.eq_false_iff, ne_eq, frameCrcOk_iff]
    rw [exec_frame hc hup, State.frameArrives_badCrc hlen hbad, hport]
    rfl
  all_goals have hcrcOk := (frameCrcOk_iff bytes).2 hcrc
  · rw [State.frameArrives_otherKind hlen hcrcOk h1 h2, hport]
  all_goals have harrives := State.frameArrives_samples (s := s.event) (p := p) hlen hcrcOk hkind
  · have hbad : ¬ frameLengthOk bytes = true := by rwa [frameLengthOk_iff]
    rw [harrives, if_neg hbad, hport]
  all_goals
    rw [if_pos ((frameLengthOk_iff bytes).2 hfield)] at harrives
    have hok := samplesLengthOk_iff q.width payload
    rw [← hport] at hok
  · have hwrong : samplesLengthOk (s.event.port p).width payload = false := by
      rw [Bool.eq_false_iff, ne_eq, hok, hport]
      exact fun ⟨hfive, hsize⟩ => hbad.elim (Nat.not_lt.2 hfive) fun h => h hsize
    rw [harrives, State.samplesArrive_badLength hwrong, hport]
  · have hright : samplesLengthOk (s.event.port p).width payload = true := hok.2 ⟨hfive, hport ▸ hsize⟩
    rw [exec_frame hc hup, harrives, State.samplesArrive_noLane hright hlane, hport]
    rfl

/-! ### REQUEST frames (R157) -/

theorem State.requestArrives_full {s : State} {p : Port} {bytes : List Byte} (h : 8 ≤ (s.port p).queue.length) :
    s.requestArrives p bytes =
      (s.setPort p (s.port p).countDropped).raiseTo p .requestDropped none (fieldAt bytes 4 2) 0 :=
  if_neg (Nat.not_lt.2 h)

theorem State.requestArrives_room {s : State} {p : Port} {bytes : List Byte} (h : (s.port p).queue.length < 8) :
    s.requestArrives p bytes = s.setPort p ((s.port p).enqueue (entryOf bytes)) :=
  if_pos h

theorem entryOf_badLength {bytes : List Byte} (h : fieldAt bytes 6 2 ≠ bytes.length - 12) :
    entryOf bytes = .malformed (BitVec.ofNat 16 (fieldAt bytes 4 2)) (byteAt bytes 1) :=
  if_neg (by rwa [frameLengthOk_iff])

theorem entryOf_goodLength {bytes : List Byte} (h : fieldAt bytes 6 2 = bytes.length - 12) :
    entryOf bytes =
      readEntry (BitVec.ofNat 16 (fieldAt bytes 4 2)) (byteAt bytes 1) (byteAt bytes 3) (framePayload bytes) :=
  if_pos ((frameLengthOk_iff bytes).2 h)

/-- Every code of the table is read, whatever its payload holds (R184). -/
theorem readRequest_of_length {code : Byte} {n : Nat} (h : requestLength code = some n) (b : List Byte) :
    ∃ r, readRequest code b = some r := by
  unfold requestLength at h
  unfold readRequest
  split at h
  case h_19 => cases h
  all_goals exact ⟨_, rfl⟩

/-- Settles O5: a full queue drops the frame; one with room takes the entry of `entryOf`. -/
theorem requestFrameArrival : Obligations.RequestFrameArrival := by
  intro s p bytes hup hlen hcrc hkind t q tag lane code payload joins counted
  have hport : s.event.port p = q := s.port_event p
  have hexec : exec (.requestFrame p bytes) s = .next (s.event.requestArrives p bytes) := by
    rw [exec_frame (.inl rfl) hup, State.frameArrives_request hlen hcrc hkind]
  refine ⟨fun hfull => ?_, fun hroom => ?_⟩
  · rw [hexec, State.requestArrives_full (by rwa [hport]), State.raiseTo_eq, State.port_setPort_same,
      State.setPort_setPort, State.foldedEntry_eq, State.foldedEntry_eq, State.setPort_events, State.port_setPort_same,
      hport]
    have ht : t.port p = q := hport
    rw [ht]
    rfl
  · have hjoins : ∀ e, entryOf bytes = e → joins e (q.enqueue e).malformed := fun e he => by
      change exec (.requestFrame p bytes) s = _
      rw [hexec, State.requestArrives_room (by rwa [hport]), hport, he, PortRec.enqueue_eq]
      rfl
    refine ⟨fun hfield => hjoins _ (entryOf_badLength hfield), fun hfield => ?_⟩
    have hentry := entryOf_goodLength hfield
    unfold readEntry at hentry
    refine ⟨fun hnone => hjoins _ ?_, fun n hn => ⟨fun hne => hjoins _ ?_, fun heq => ?_⟩⟩
    · simpa only [show requestLength (byteAt bytes 3) = none from hnone] using hentry
    · simpa only [show requestLength (byteAt bytes 3) = some n from hn,
        if_neg (show ¬ (framePayload bytes).length = n from hne)] using hentry
    · obtain ⟨r, hr⟩ := readRequest_of_length hn payload
      refine ⟨r, hr, hjoins _ ?_⟩
      simpa only [show requestLength (byteAt bytes 3) = some n from hn,
        if_pos (show (framePayload bytes).length = n from heq),
        show readRequest (byteAt bytes 3) (framePayload bytes) = some r from hr] using hentry

end Sys2Proof.Machine

/-! PROOF. The REQUEST frame a station forms (R154, R184, 11.6): the part reads every field of it back. The statement
O4. -/

namespace Sys2Proof.Machine
open Sys2Proof

/-! ### Fields of bytes set one after the other -/

@[simp] theorem beBytes_length (k n : Nat) : (beBytes k n).length = k := by
  induction k with
  | zero => rfl
  | succ k ih => rw [beBytes, List.length_cons, ih]

/-- A field past the first bytes is a field of the bytes after them. -/
theorem fieldAt_append {pre rest : List Byte} {off k : Nat} (h : pre.length ≤ off) :
    fieldAt (pre ++ rest) off k = fieldAt rest (off - pre.length) k := by
  rw [fieldAt, List.drop_append, List.drop_eq_nil_of_le h, List.nil_append, fieldAt]

theorem fieldAt_front {pre rest : List Byte} {k : Nat} (h : pre.length = k) :
    fieldAt (pre ++ rest) 0 k = fromBE pre := by
  rw [fieldAt, List.drop_zero, List.take_left' h]

theorem fieldAt_cons_succ (b : Byte) (bs : List Byte) (off k : Nat) :
    fieldAt (b :: bs) (off + 1) k = fieldAt bs off k := rfl

theorem byteAt_append {pre rest : List Byte} {off : Nat} (h : pre.length ≤ off) :
    byteAt (pre ++ rest) off = byteAt rest (off - pre.length) := by
  simp only [byteAt, List.getD_eq_getElem?_getD, List.getElem?_append_right h]

/-- The bytes of a word read back as the word. -/
theorem ofNat_fromBE_beBytes {w k : Nat} (hw : w = 8 * k) (x : BitVec w) :
    BitVec.ofNat w (fromBE (beBytes k x.toNat)) = x := by
  subst hw
  rw [fromBE_beBytes, show (256 : Nat) = 2 ^ 8 from rfl, ← pow_mul, Nat.mod_eq_of_lt x.isLt, BitVec.ofNat_toNat,
    BitVec.setWidth_eq]

theorem half_fromBE_beBytes (x : Half) : BitVec.ofNat 16 (fromBE (beBytes 2 x.toNat)) = x :=
  ofNat_fromBE_beBytes (by rfl) x
theorem word_fromBE_beBytes (x : Word) : BitVec.ofNat 32 (fromBE (beBytes 4 x.toNat)) = x :=
  ofNat_fromBE_beBytes (by rfl) x

/-! ### Vectors of words -/

theorem length_flatMap_const {α : Type} {f : α → List Byte} {k : Nat} (hf : ∀ x, (f x).length = k) (l : List α) :
    (l.flatMap f).length = k * l.length := by
  rw [List.length_flatMap, List.map_congr_left fun x _ => hf x, List.map_const', List.sum_replicate, smul_eq_mul,
    Nat.mul_comm]

theorem fieldAt_flatMap {α : Type} {f : α → List Byte} {k : Nat} (hf : ∀ x, (f x).length = k) (post : List Byte)
    {l : List α} {i : Nat} (hi : i < l.length) :
    fieldAt (l.flatMap f ++ post) (k * i) k = fromBE (f l[i]) := by
  induction l generalizing i with
  | nil => exact absurd hi (Nat.not_lt_zero _)
  | cons x l ih =>
    rw [List.flatMap_cons, List.append_assoc]
    cases i with
    | zero => exact fieldAt_front (hf x)
    | succ i =>
      rw [fieldAt_append (by rw [hf, Nat.mul_succ]; exact Nat.le_add_left _ _), hf, Nat.mul_succ, Nat.add_sub_cancel]
      exact ih (Nat.lt_of_succ_lt_succ hi)

/-- The words of a vector read back, each at its offset. -/
theorem ofFn_fieldAt {w k m : Nat} (hw : w = 8 * k) (v : Vector (BitVec w) m) {pre post : List Byte} {off : Nat}
    (hoff : pre.length = off) :
    (Vector.ofFn fun i : Fin m => BitVec.ofNat w
      (fieldAt (pre ++ (v.toList.flatMap (fun x => beBytes k x.toNat) ++ post)) (off + k * i.val) k)) = v := by
  refine Vector.ext fun i hi => ?_
  rw [Vector.getElem_ofFn, fieldAt_append (by omega), hoff, Nat.add_sub_cancel_left,
    fieldAt_flatMap (fun x => beBytes_length _ _) post (by rwa [Vector.length_toList]), ofNat_fromBE_beBytes hw,
    Vector.getElem_toList]

theorem ofFn_byteAt {m : Nat} (v : Vector Byte m) : (Vector.ofFn fun i : Fin m => byteAt v.toList i.val) = v := by
  refine Vector.ext fun i hi => ?_
  rw [Vector.getElem_ofFn, byteAt, List.getD_eq_getElem _ _ (by rwa [Vector.length_toList]), Vector.getElem_toList]

/-! ### Payloads (R184, 11.6) -/

theorem profileBytes_length (r : ProfileRaw) : (profileBytes r).length = 80 := by
  simp only [profileBytes, List.length_append, List.length_cons, List.length_nil, beBytes_length,
    length_flatMap_const fun _ => beBytes_length _ _, Vector.length_toList]

/-- The bytes of a REQUEST PROFILE WRITE before its levels. -/
def profileHead (slot : Byte) (r : ProfileRaw) : List Byte :=
  slot :: (beBytes 2 r.t.toNat ++ r.g :: r.lmax :: (beBytes 2 r.emin.toNat ++ (beBytes 2 r.ls.toNat ++
    r.mode :: (beBytes 2 r.f.toNat ++ [r.d, r.h, r.mu]))))

theorem profileHead_length (slot : Byte) (r : ProfileRaw) : (profileHead slot r).length = 15 := rfl

def levelBytes (r : ProfileRaw) : List Byte := r.levels.toList.flatMap fun x => beBytes 3 x.toNat
def alphaBytes (r : ProfileRaw) : List Byte := r.alphas.toList.flatMap fun x => beBytes 2 x.toNat

theorem levelBytes_length (r : ProfileRaw) : (levelBytes r).length = 36 := by
  rw [levelBytes, length_flatMap_const fun _ => beBytes_length _ _, Vector.length_toList]

theorem alphaBytes_length (r : ProfileRaw) : (alphaBytes r).length = 24 := by
  rw [alphaBytes, length_flatMap_const fun _ => beBytes_length _ _, Vector.length_toList]

def gainBytes (r : ProfileRaw) : List Byte :=
  beBytes 2 r.g1.toNat ++ (beBytes 2 r.g2.toNat ++ beBytes 2 r.g3.toNat)

/-- The bytes of a REQUEST PROFILE WRITE, in the four parts its fields are read in. -/
def profileParts (slot : Byte) (r : ProfileRaw) : List Byte :=
  profileHead slot r ++ (levelBytes r ++ (alphaBytes r ++ gainBytes r))

theorem profileBytes_eq (slot : Byte) (r : ProfileRaw) : slot :: profileBytes r = profileParts slot r := by
  simp only [profileBytes, profileParts, profileHead, levelBytes, alphaBytes, gainBytes, List.append_assoc,
    List.cons_append, List.nil_append]

theorem profileRawAt_levels (slot : Byte) (r : ProfileRaw) : (profileRawAt (profileParts slot r) 1).levels = r.levels :=
  ofFn_fieldAt (k := 3) (off := 15) rfl r.levels (profileHead_length slot r)

theorem profileRawAt_alphas (slot : Byte) (r : ProfileRaw) :
    (profileRawAt (profileParts slot r) 1).alphas = r.alphas := by
  have hbefore : (profileHead slot r ++ levelBytes r).length = 51 := by
    rw [List.length_append, levelBytes_length, profileHead_length]
  rw [profileParts, ← List.append_assoc]
  exact ofFn_fieldAt (k := 2) (off := 51) rfl r.alphas hbefore

theorem fieldAt_gains (slot : Byte) (r : ProfileRaw) (off : Nat) :
    fieldAt (profileParts slot r) (75 + off) 2 = fieldAt (gainBytes r) off 2 := by
  have hbefore : (profileHead slot r ++ (levelBytes r ++ alphaBytes r)).length = 75 := by
    rw [List.length_append, List.length_append, profileHead_length, levelBytes_length, alphaBytes_length]
  rw [profileParts, ← List.append_assoc (levelBytes r), ← List.append_assoc, fieldAt_append (by omega), hbefore,
    Nat.add_sub_cancel_left]

theorem profileRawAt_gain (slot : Byte) {r : ProfileRaw} {off : Nat} {x : Half}
    (h : fieldAt (gainBytes r) off 2 = fromBE (beBytes 2 x.toNat)) :
    BitVec.ofNat 16 (fieldAt (profileParts slot r) (75 + off) 2) = x := by
  rw [fieldAt_gains, h, half_fromBE_beBytes]

/-- A PROFILE record read behind a byte, every field at every value. -/
theorem profileRawAt_profileBytes (slot : Byte) (r : ProfileRaw) : profileRawAt (slot :: profileBytes r) 1 = r := by
  have hlevels := profileRawAt_levels slot r
  have halphas := profileRawAt_alphas slot r
  have hg1 : (profileRawAt (profileParts slot r) 1).g1 = r.g1 := profileRawAt_gain slot (off := 0) rfl
  have hg2 : (profileRawAt (profileParts slot r) 1).g2 = r.g2 := profileRawAt_gain slot (off := 2) rfl
  have hg3 : (profileRawAt (profileParts slot r) 1).g3 = r.g3 := profileRawAt_gain slot (off := 4) rfl
  rw [profileBytes_eq]
  obtain ⟨t, g, lmax, emin, ls, mode, f, d, h, mu, levels, alphas, g1, g2, g3⟩ := r
  rw [profileRawAt, ProfileRaw.mk.injEq]
  exact ⟨half_fromBE_beBytes t, rfl, rfl, half_fromBE_beBytes emin, half_fromBE_beBytes ls, rfl,
    half_fromBE_beBytes f, rfl, rfl, rfl, hlevels, halphas, hg1, hg2, hg3⟩

theorem requestLength_requestPayload (r : Request) :
    requestLength (requestCode r) = some (requestPayload r).length := by
  cases r
  case profileWrite slot p => simp only [requestPayload, List.length_cons, profileBytes_length]; rfl
  case noticeMask m => simp only [requestPayload, Vector.length_toList]; rfl
  all_goals rfl

theorem readRequest_requestPayload (r : Request) : readRequest (requestCode r) (requestPayload r) = some r := by
  cases r
  case laneOpen a =>
    exact congrArg₂ (fun reserve start => some (Request.laneOpen { a with reserve, start }))
      (half_fromBE_beBytes a.reserve) (word_fromBE_beBytes a.start)
  case edit a =>
    exact congrArg₂ (fun pos length => some (Request.edit { a with pos, length }))
      (word_fromBE_beBytes a.pos) (half_fromBE_beBytes a.length)
  case reserve pos => exact congrArg (some ∘ Request.reserve) (word_fromBE_beBytes pos)
  case cursorSet pos => exact congrArg (some ∘ Request.cursorSet) (word_fromBE_beBytes pos)
  case profileWrite slot p => exact congrArg (some ∘ Request.profileWrite slot) (profileRawAt_profileBytes slot p)
  case noticeMask m => exact congrArg (some ∘ Request.noticeMask) (ofFn_byteAt m)
  all_goals rfl

/-- No request is longer than a PROFILE WRITE. -/
theorem requestPayload_length_le (r : Request) : (requestPayload r).length ≤ 81 := by
  cases r
  case profileWrite slot p => simp only [requestPayload, List.length_cons, profileBytes_length]; decide
  case noticeMask m => simp only [requestPayload, Vector.length_toList]; decide
  all_goals exact Nat.le_of_ble_eq_true rfl

/-! ### The CRC fits its four bytes (R155) -/

theorem crcBit_lt {c : Nat} (h : c < 2 ^ 32) : crcBit c < 2 ^ 32 := by
  unfold crcBit
  split
  · exact Nat.xor_lt_two_pow (by omega) (by decide)
  · omega

theorem crcBits_lt (k : Nat) {c : Nat} (h : c < 2 ^ 32) : crcBits k c < 2 ^ 32 := by
  induction k generalizing c with
  | zero => exact h
  | succ k ih => exact ih (crcBit_lt h)

theorem crcRun_lt (bs : List Byte) {c : Nat} (h : c < 2 ^ 32) : crcRun c bs < 2 ^ 32 := by
  induction bs generalizing c with
  | nil => exact h
  | cons b t ih => exact ih (crcBits_lt 8 (Nat.xor_lt_two_pow h (b.isLt.trans (by decide))))

theorem crc32_lt (bs : List Byte) : crc32 bs < 2 ^ 32 :=
  Nat.xor_lt_two_pow (crcRun_lt bs (by decide)) (by decide)

/-! ### Frames formed (R154, R155) -/

/-- What the CRC of a formed frame is of. -/
def inboundBody (kind lane flags code : Byte) (tag : Half) (payload : List Byte) : List Byte :=
  [kind, lane, flags, code] ++ beBytes 2 tag.toNat ++ beBytes 2 payload.length ++ payload

section
variable (kind lane flags code : Byte) (tag : Half) (payload : List Byte)

theorem inboundFrame_eq : inboundFrame kind lane flags code tag payload =
    inboundBody kind lane flags code tag payload ++ beBytes 4 (crc32 (inboundBody kind lane flags code tag payload)) :=
  rfl

theorem inboundFrame_length : (inboundFrame kind lane flags code tag payload).length = payload.length + 12 := by
  simp only [inboundFrame, List.length_append, List.length_cons, List.length_nil, beBytes_length]
  omega

theorem frameCrcOk_inboundFrame : frameCrcOk (inboundFrame kind lane flags code tag payload) = true := by
  have hbody : (inboundFrame kind lane flags code tag payload).length - 4 =
      (inboundBody kind lane flags code tag payload).length := by
    rw [inboundFrame_eq, List.length_append, beBytes_length, Nat.add_sub_cancel]
  rw [frameCrcOk_iff, hbody, inboundFrame_eq, List.take_left, fieldAt_append le_rfl, Nat.sub_self, fieldAt,
    List.drop_zero, List.take_of_length_le (beBytes_length _ _).le, fromBE_beBytes,
    Nat.mod_eq_of_lt (show _ < 256 ^ 4 from crc32_lt _)]

theorem byteAt_inboundFrame_kind : byteAt (inboundFrame kind lane flags code tag payload) 0 = kind := rfl
theorem byteAt_inboundFrame_lane : byteAt (inboundFrame kind lane flags code tag payload) 1 = lane := rfl
theorem byteAt_inboundFrame_code : byteAt (inboundFrame kind lane flags code tag payload) 3 = code := rfl

theorem ofNat_fieldAt_inboundFrame_tag :
    BitVec.ofNat 16 (fieldAt (inboundFrame kind lane flags code tag payload) 4 2) = tag :=
  half_fromBE_beBytes tag

/-- Check 4 of R155, of every payload the two bytes of its length can tell. -/
theorem fieldAt_inboundFrame_length (h : payload.length < 65536) :
    fieldAt (inboundFrame kind lane flags code tag payload) 6 2 = payload.length :=
  (fromBE_beBytes 2 payload.length).trans (Nat.mod_eq_of_lt h)

theorem framePayload_inboundFrame : framePayload (inboundFrame kind lane flags code tag payload) = payload := by
  rw [framePayload, inboundFrame_length, Nat.add_sub_cancel]
  exact List.take_left

end

theorem entryOf_requestFrameOf (lane flags : Byte) (tag : Half) (r : Request) :
    entryOf (requestFrameOf lane flags tag r) = .whole tag lane r := by
  have hle := requestPayload_length_le r
  have hfield : fieldAt (requestFrameOf lane flags tag r) 6 2 = (requestFrameOf lane flags tag r).length - 12 := by
    rw [requestFrameOf, inboundFrame_length, fieldAt_inboundFrame_length _ _ _ _ _ _ (by omega), Nat.add_sub_cancel]
  rw [entryOf_goodLength hfield, requestFrameOf, ofNat_fieldAt_inboundFrame_tag, byteAt_inboundFrame_lane,
    byteAt_inboundFrame_code, framePayload_inboundFrame]
  simp only [readEntry, requestLength_requestPayload, readRequest_requestPayload, if_true]

/-- Settles O4: each field is read at the offset it was set at, and the frame passes each check in turn. -/
theorem formedRequestFrameJoinsTheQueue : Obligations.FormedRequestFrameJoinsTheQueue := by
  refine ⟨fun r => ⟨requestLength_requestPayload r, readRequest_requestPayload r⟩, ?_⟩
  intro s p lane flags tag r hup hroom
  have hlen : 12 ≤ (requestFrameOf lane flags tag r).length := by
    rw [requestFrameOf, inboundFrame_length]
    exact Nat.le_add_left _ _
  rw [exec_frame (.inl rfl) hup, State.frameArrives_request hlen (frameCrcOk_inboundFrame ..)
    (byteAt_inboundFrame_kind ..), State.requestArrives_room (by rwa [s.port_event p]), s.port_event p,
    entryOf_requestFrameOf, PortRec.enqueue_eq]
  rfl

end Sys2Proof.Machine

/-! PROOF. The reports that change nothing but their port's answer list: entries that are no request (R158), IDENTIFY
(R183) and CONDITION (R180). The statements O11 and O13. -/

namespace Sys2Proof.Machine
open Sys2Proof

/-! ### IDENTIFY (R183) -/

/-- The capability record byte by byte. -/
theorem identifyRecord_eq (p : Port) : identifyRecord p =
    [0x52#8, 0x50#8, 0x54#8, 0x0C#8, 0xF8#8, 1#8, 6#8, 2#8, 1#8, 0#8, 0x10#8, 0#8, 32#8, 4#8, 1#8, 0#8, 4#8, 0#8, 8#8,
      if p = .A then 0#8 else 1#8] := by
  cases p <;> decide

/-- Settles O11: each is the taking of the entry and one answer, that of IDENTIFY by `identifyRecord_eq`. -/
theorem malformedUnknownAndIdentifyAreAnswered : Obligations.MalformedUnknownAndIdentifyAreAnswered := by
  refine ⟨fun s p tag lane rest => ⟨fun hmalformed => ?_, fun hunknown => ?_⟩, fun s p tag lane rest hidentify => ?_⟩
  · exact State.take_offers hmalformed (·.answer p tag lane .malformed [])
  · exact State.take_offers hunknown (·.answer p tag lane .unknown [])
  · rw [← identifyRecord_eq]
    exact State.take_offers hidentify (·.answer p tag lane .done (identifyRecord p))

/-! ### The records of CONDITION (11.7) -/

theorem laneByte_of_toNat {b : Byte} {L : LaneId} (h : b.toNat = L.val) : laneByte L = b := by
  rw [laneByte, ← h, BitVec.ofNat_toNat, BitVec.setWidth_eq]

theorem portOf_portByte (k : Port) : portOf (portByte k) = some k := by
  cases k <;> rfl

theorem portOf_none {b : Byte} (h : 1 < b.toNat) : portOf b = none :=
  Option.eq_none_iff_forall_not_mem.2 fun _ hk => Nat.not_le.2 h (portOf_le hk)

/-- The taking of an entry changes no lane, so no lane's record. -/
theorem State.laneCondition_took (s : State) (p : Port) (rest : List Entry) (L : LaneId) :
    (s.took p rest).laneCondition L = s.laneCondition L := by
  simp only [State.laneCondition, State.took_lane]

/-- The taking of an entry shortens a queue, which no port's record shows. -/
theorem State.portCondition_took (s : State) (p : Port) (rest : List Entry) (k : Port) :
    (s.took p rest).portCondition k = s.portCondition k := by
  simp only [State.portCondition, State.port_took]
  split <;> rfl

/-! ### CONDITION by its form (R180) -/

theorem exec_condition {s : State} {p : Port} {tag : Half} {lane form which : Byte} {rest : List Entry}
    (h : s.offers p (.whole tag lane (.condition form which)) rest) :
    exec (.condition p tag lane form which) s = .next ((s.took p rest).condition p tag lane form which) :=
  State.take_offers h (·.condition p tag lane form which)

section
variable (s : State) (p : Port) (tag : Half) (lane : Byte) {form which : Byte}

theorem State.condition_noLane (h : 5 < which.toNat) :
    s.condition p tag lane 0#8 which = s.replied p tag lane .range (0x51#8 :: List.replicate 71 0#8) := by
  rw [State.condition, if_pos rfl, laneOf_none h]
  rfl

theorem State.condition_lane {L : LaneId} (h : which.toNat = L.val) :
    s.condition p tag lane 0#8 which = s.replied p tag lane .done (s.laneCondition L) := by
  rw [State.condition, if_pos rfl, laneOf_of_toNat h]
  rfl

theorem State.condition_noPort (h : 1 < which.toNat) :
    s.condition p tag lane 1#8 which = s.replied p tag lane .range (0x51#8 :: List.replicate 19 0#8) := by
  rw [State.condition, if_neg (by decide), if_pos rfl, portOf_none h]
  rfl

theorem State.condition_port (k : Port) :
    s.condition p tag lane 1#8 (portByte k) = s.replied p tag lane .done (s.portCondition k) := by
  rw [State.condition, if_neg (by decide), if_pos rfl, portOf_portByte]
  rfl

/-- No other form than the two: the LANE layout (R185). -/
theorem State.condition_form (h0 : form ≠ 0#8) (h1 : form ≠ 1#8) :
    s.condition p tag lane form which = s.replied p tag lane .range (0x51#8 :: List.replicate 71 0#8) := by
  rw [State.condition, if_neg h0, if_neg h1]
  rfl

end

/-- Settles O13: the forms in turn, and the records of `State.laneCondition` and `State.portCondition`, which the taking
of the request leaves. -/
theorem conditionReportsCounters : Obligations.ConditionReportsCounters := by
  intro s p tag lane form which rest hoff answer
  have hanswer : ∀ {st payload}, (s.took p rest).condition p tag lane form which =
      (s.took p rest).replied p tag lane st payload → answer st payload :=
    fun h => (exec_condition hoff).trans (congrArg _ h)
  refine ⟨?noLane, ?lane, ?noPort, ?port, fun h0 h1 => hanswer (State.condition_form _ _ _ _ h0 h1)⟩
  case noLane =>
    rintro rfl h
    exact hanswer (State.condition_noLane _ _ _ _ h)
  case lane =>
    rintro rfl L hL l
    refine hanswer ?_
    rw [State.condition_lane _ _ _ _ hL, State.laneCondition_took, State.laneCondition, laneByte_of_toNat hL]
    rfl
  case noPort =>
    rintro rfl h
    exact hanswer (State.condition_noPort _ _ _ _ h)
  case port =>
    rintro rfl k rfl q
    refine hanswer ?_
    rw [State.condition_port, State.portCondition_took]
    rfl

end Sys2Proof.Machine

/-! PROOF. A step on a queue of commands that is not empty: the front command is taken and carried out. The statement O1. -/

namespace Sys2Proof.Machine
open Sys2Proof

/-- What a step does while commands wait. -/
theorem step_of_pending_cons {s : State} {c : Instr} {rest : List Instr} (h : s.pending = c :: rest) :
    step s = exec c { s with pending := rest } := by
  rw [step, h]

/-- Settles O1: the front command is `c`, and the queue's rest put back in place of the queue gives `s` again. -/
theorem stepRunsTheFrontCommand : Obligations.StepRunsTheFrontCommand :=
  fun c s => step_of_pending_cons (s := { s with pending := c :: s.pending }) rfl

end Sys2Proof.Machine
